-- ==== Sys2Proof/Word.lean ====
section
/-! DEFINITION. The word types of the WGDE.

Every cycle-valued quantity and every mask is a 32-bit word (spec/00_scope.md rules R6, R11, R12):
sums, differences and products are taken modulo 2^32, which is `BitVec` arithmetic. A signed 32-bit value
(`s32`, rule R13) is the same word read in two's complement. -/

namespace Sys2Proof

/-- A word of 32 bits: a cycle-valued quantity, a mask or an operand (R6, R11). -/
abbrev Word := BitVec 32

/-- A byte, of which a command frame has sixteen when it is serialised (R74, R81). -/
abbrev Byte := BitVec 8

/-- The `u8` pin operand of START and STOP (R80, R81). -/
abbrev Pin := BitVec 8

end Sys2Proof
end

