-- ==== Sys2Proof/Config.lean ====
section
/-! DEFINITION. The configuration record `Cfg` (spec/00_scope.md rules R6 to R10) and the free values: constants
without a body, of which nothing can be proved but their type. -/

namespace Sys2Proof

/-- The number of channels, one per pin (R6): a fixed constant and no parameter. -/
abbrev numChannels : Nat := 17

/-- The record `Cfg` of implementation parameters (R7, R8, R9). It is fixed before reset is released and does not
change (R7, R188). -/
structure Cfg where
  /-- `N_PORTS`, the number of command ports, at least 1 (R9). -/
  nPorts : Nat
  /-- `CYC_PER_US`, cycles of the counter per microsecond, a positive integer below 2^16 (R7). -/
  cycPerUs : Nat
  /-- `CLOCK_FAST`, whether the timer register ticks at half the CPU clock (R7, R42). -/
  clockFast : Bool
  /-- `T_KICK`, the delay of a kick (R8). -/
  tKick : Word
  /-- `T_BUDGET`, the time budget of a pass (R8). -/
  tBudget : Word
  /-- `T_MAXIRQ`, the longest interrupt period (R8). -/
  tMaxirq : Word
  /-- `T_COMP`, the overhead compensation (R8). -/
  tComp : Word
  /-- `T_MIN_ARM`, the minimum delay of a re-arm (R8). -/
  tMinArm : Word
  /-- `T_IMMINENT`, below which an event is imminent (R8). -/
  tImminent : Word
  /-- `RESERVED_PINS`, the mask of the hardware-reserved pins (R9). -/
  reservedPins : Word
  deriving DecidableEq, Repr, Inhabited

/-- `TICK_CYC`, cycles per timer tick, derived from `CLOCK_FAST` (R7). -/
def Cfg.tickCyc (c : Cfg) : Nat := if c.clockFast then 2 else 1

/-- A time constant is a signed 32-bit value required to lie in `[0, 2^31)` (R8). -/
def Cfg.isTime (w : Word) : Bool := decide (w.toNat < 2 ^ 31)

/-- R9: at least one command port. -/
def Cfg.portsOk (c : Cfg) : Bool := decide (1 ≤ c.nPorts)

/-- R7: `CYC_PER_US` is a positive integer below 2^16. -/
def Cfg.rateOk (c : Cfg) : Bool := decide (1 ≤ c.cycPerUs) && decide (c.cycPerUs < 2 ^ 16)

/-- R8: every time constant lies in `[0, 2^31)`. -/
def Cfg.timesOk (c : Cfg) : Bool :=
  Cfg.isTime c.tKick && Cfg.isTime c.tBudget && Cfg.isTime c.tMaxirq && Cfg.isTime c.tComp &&
    Cfg.isTime c.tMinArm && Cfg.isTime c.tImminent

/-- R10: `T_MIN_ARM` is at least one cycle and at least one timer tick. -/
def Cfg.minArmOk (c : Cfg) : Bool := decide (1 ≤ c.tMinArm.toNat) && decide (c.tickCyc ≤ c.tMinArm.toNat)

/-- R10: `T_IMMINENT` is at least 1, so that an overdue event is always imminent. -/
def Cfg.imminentOk (c : Cfg) : Bool := decide (1 ≤ c.tImminent.toNat)

/-- R10: a kick is at least one timer tick. -/
def Cfg.kickOk (c : Cfg) : Bool := decide (c.tickCyc ≤ c.tKick.toNat)

/-- R10: `T_MAXIRQ + T_COMP < 2^31`. -/
def Cfg.maxirqOk (c : Cfg) : Bool := decide (c.tMaxirq.toNat + c.tComp.toNat < 2 ^ 31)

/-- R10: the budget is positive. -/
def Cfg.budgetOk (c : Cfg) : Bool := decide (0 < c.tBudget.toNat)

/-- R9: `RESERVED_PINS` is a 17-bit mask. -/
def Cfg.reservedOk (c : Cfg) : Bool := decide (c.reservedPins.toNat < 2 ^ numChannels)

/-- The constraints a configuration must satisfy (R7 to R10). -/
def Cfg.valid (c : Cfg) : Bool :=
  c.portsOk && c.rateOk && c.timesOk && c.minArmOk && c.imminentOk && c.kickOk && c.maxirqOk && c.budgetOk &&
    c.reservedOk

/-- Whose step comes next: the micro-step of a command port, or the dispatch engine, which enters a pass if the timer
is due (R16). -/
inductive Turn where
  /-- One step of command port `p`. -/
  | port (p : Nat)
  /-- The dispatch engine looks at the timer and, if it is due, makes one pass. -/
  | dispatch
  deriving DecidableEq, Repr, Inhabited

/-- DESIGN CHOICE (notes/assumptions/1.md, safe). The OPEN parameters as the model's caller gives them: a free value. -/
opaque Config.openCfg : Cfg

/-- DESIGN CHOICE (notes/assumptions/1.md). A configuration that meets R10, used only where the free record does not: the
defaults of R8 at one cycle per microsecond, one port, no pin reserved. -/
def Config.fallback : Cfg where
  nPorts := 1
  cycPerUs := 1
  clockFast := false
  tKick := 2
  tBudget := 14
  tMaxirq := 1000000
  tComp := 0
  tMinArm := 1
  tImminent := 2
  reservedPins := 0

/-- The configuration of the machine: the free record, if it satisfies the constraints that R10 puts on every
configuration. -/
def Config.cfg : Cfg := if Config.openCfg.valid then Config.openCfg else Config.fallback

/-- FREE VALUE (notes/assumptions/2.md). The cycle counter's value at reset is arbitrary (R187). -/
opaque Config.counterAtReset : Word

/-- FREE VALUE (notes/assumptions/2.md). The cycles that pass before the `n`-th draw's counter sample (R40); the sampling
operation keeps them within the constraints of R40. -/
opaque Config.elapsed : Nat → Nat

/-- FREE VALUE (notes/assumptions/3.md). The callback's answer at the `n`-th draw, in microseconds, for the handle
registered (R136): any 32-bit value. -/
opaque Config.auxAnswer : Word → Nat → Word

/-- FREE VALUE (notes/assumptions/4.md). Which agent moves at the `n`-th draw (R66, R67). -/
opaque Config.schedule : Nat → Turn

end Sys2Proof
end

