-- ==== Sys2Proof/Syntax.lean ====
section
/-! DEFINITION. The command set of the WGDE and the command frame (spec/30_encoding.md rules R80 to R82). -/

namespace Sys2Proof

/-- The four host commands, one constructor per row of the opcode table (R80, R82). The operand types are those of
R80: a `u8` pin and `u32` cycle operands; an operand of the wrong width cannot be written. -/
inductive Instr where
  /-- `StartWaveform(pin, duty_cycles, period_cycles, run_duration_cycles)`, R101. -/
  | start (pin : Pin) (duty period run : Word)
  /-- `StopWaveform(pin)`, R106. -/
  | stop (pin : Pin)
  /-- `SetAuxiliaryCallback(fn)`, R109; `fn` is an opaque handle. -/
  | setaux (fn : Word)
  /-- `SetAuxiliaryCallback(none)`, R110. -/
  | clraux
  deriving DecidableEq, Repr

/-- One command frame: the four words a port takes as a unit (R81). -/
structure Frame where
  w0 : Word
  w1 : Word
  w2 : Word
  w3 : Word
  deriving DecidableEq, Repr

end Sys2Proof
end

