-- ==== Sys2Proof/WellFormed.lean ====
section
/-! DEFINITION. Which instructions keep the obligations that spec/70_reset_and_hazards.md rules R198 to R200 put on the
caller. Every term of `Instr` has an encoding, because its operands have the widths of R80: no check of the encoding is
left to make on it. (The checks of a frame, R83, stand beside the decoder; those of a configuration, R10, in Config.) -/

namespace Sys2Proof

/-- R198: `0 < period_cycles < 2^31`. -/
def periodInBounds (period : Word) : Bool := decide (0 < period.toNat) && decide (period.toNat < 2 ^ 31)

/-- R198, R199: `duty_cycles <= period_cycles`. -/
def dutyInBounds (duty period : Word) : Bool := decide (duty.toNat ≤ period.toNat)

/-- R198, R200: `run_duration_cycles < 2^31`. -/
def runInBounds (run : Word) : Bool := decide (run.toNat < 2 ^ 31)

/-- The obligations R198 puts on the operands of a command; the WGDE checks only that the period is not 0. -/
def Instr.inBounds : Instr → Bool
  | .start _ duty period run => periodInBounds period && dutyInBounds duty period && runInBounds run
  | .stop _ => true
  | .setaux _ => true
  | .clraux => true

end Sys2Proof
end

