-- ==== Sys2Proof/Decode.lean ====
section
/-! DEFINITION. The decoder, total on any bytes, and after it the encoder (spec/30_encoding.md rules R81 to R83, byte
order of spec/20_memory.md rule R74). -/

namespace Sys2Proof

/-- Why a sequence of bytes is no command. The first four are the illegal frames of R83; the last is an access that is
not to a whole frame (R75). -/
inductive DecodeError where
  /-- An `op` other than 0x01 to 0x04. -/
  | unknownOp
  /-- A non-zero `rsv`. -/
  | reservedBits
  /-- A non-zero `pin` with SETAUX or CLRAUX. -/
  | pinNotZero
  /-- A non-zero value in a word the row marks "must be 0". -/
  | wordNotZero
  /-- Not the sixteen bytes of one frame. -/
  | notAWholeFrame
  deriving DecidableEq, Repr

/-- `W0[31:24]`, the opcode (R81). -/
def Frame.op (f : Frame) : BitVec 8 := f.w0.extractLsb' 24 8

/-- `W0[23:8]`, reserved, must be 0 (R81). -/
def Frame.rsv (f : Frame) : BitVec 16 := f.w0.extractLsb' 8 16

/-- `W0[7:0]`, the pin operand (R81). -/
def Frame.pin (f : Frame) : Pin := f.w0.extractLsb' 0 8

/-- R82: the opcode is one of the four of the opcode map. -/
def Frame.opKnown (f : Frame) : Bool := f.op = 0x01 || f.op = 0x02 || f.op = 0x03 || f.op = 0x04

/-- R83: the reserved field is 0. -/
def Frame.rsvZero (f : Frame) : Bool := f.rsv = 0

/-- R83: the pin field is 0 with SETAUX and CLRAUX. -/
def Frame.pinOk (f : Frame) : Bool := f.op = 0x01 || f.op = 0x02 || f.pin = 0

/-- R81, R83: `W1` is 0 unless the row gives it a meaning (START and SETAUX). -/
def Frame.w1Ok (f : Frame) : Bool := f.op = 0x01 || f.op = 0x03 || f.w1 = 0

/-- R81, R83: `W2` is 0 unless the row gives it a meaning (START). -/
def Frame.w2Ok (f : Frame) : Bool := f.op = 0x01 || f.w2 = 0

/-- R81, R83: `W3` is 0 unless the row gives it a meaning (START). -/
def Frame.w3Ok (f : Frame) : Bool := f.op = 0x01 || f.w3 = 0

/-- A frame that is not illegal in the sense of R83. -/
def Frame.legal (f : Frame) : Bool :=
  f.opKnown && f.rsvZero && f.pinOk && f.w1Ok && f.w2Ok && f.w3Ok

/-- The instruction a frame stands for (R81, R82), or why it is illegal (R83). -/
def decodeFrame (f : Frame) : Except DecodeError Instr :=
  if f.rsv ≠ 0 then .error .reservedBits
  else if f.op = 0x01 then .ok (.start f.pin f.w1 f.w2 f.w3)
  else if f.op = 0x02 then
    if f.w1 = 0 ∧ f.w2 = 0 ∧ f.w3 = 0 then .ok (.stop f.pin) else .error .wordNotZero
  else if f.op = 0x03 then
    if f.pin ≠ 0 then .error .pinNotZero
    else if f.w2 = 0 ∧ f.w3 = 0 then .ok (.setaux f.w1) else .error .wordNotZero
  else if f.op = 0x04 then
    if f.pin ≠ 0 then .error .pinNotZero
    else if f.w1 = 0 ∧ f.w2 = 0 ∧ f.w3 = 0 then .ok .clraux else .error .wordNotZero
  else .error .unknownOp

/-- The word of four bytes, least significant byte first (R74). -/
def wordOfBytes (b0 b1 b2 b3 : Byte) : Word := b3 ++ b2 ++ b1 ++ b0

/-- The frame of sixteen bytes: `W0` first, each word least significant byte first (R74, R81). -/
def frameOfBytes : List Byte → Option Frame
  | [a0, a1, a2, a3, b0, b1, b2, b3, c0, c1, c2, c3, d0, d1, d2, d3] =>
    some ⟨wordOfBytes a0 a1 a2 a3, wordOfBytes b0 b1 b2 b3, wordOfBytes c0 c1 c2 c3, wordOfBytes d0 d1 d2 d3⟩
  | _ => none

/-- The decoder on bytes: total, rejecting by name. -/
def decodeBytes (bs : List Byte) : Except DecodeError Instr :=
  match frameOfBytes bs with
  | some f => decodeFrame f
  | none => .error .notAWholeFrame

/-- The sixteen bytes of a frame whose first `nbits` bits are `w` (bit 0 the least significant bit of `W0`) and whose
other bits are 0. -/
def tableBytes (nbits w : Nat) : List Byte :=
  (List.range 16).map fun k => BitVec.ofNat 8 ((w % 2 ^ nbits) >>> (8 * k))

/-- The instruction the decoder reads from a row's bits. -/
def decodeTableWord (nbits w : Nat) : Option Instr :=
  match decodeBytes (tableBytes nbits w) with
  | .ok i => some i
  | .error _ => none

/-- The four bytes of a word, least significant byte first (R74). -/
def wordBytes (w : Word) : List Byte :=
  [w.extractLsb' 0 8, w.extractLsb' 8 8, w.extractLsb' 16 8, w.extractLsb' 24 8]

/-- The sixteen bytes of a frame (R74, R81). -/
def frameBytes (f : Frame) : List Byte := wordBytes f.w0 ++ wordBytes f.w1 ++ wordBytes f.w2 ++ wordBytes f.w3

/-- The command word of an opcode and a pin; the reserved field is 0 (R81). -/
def commandWord (op : BitVec 8) (pin : Pin) : Word := op ++ 0#16 ++ pin

/-- The frame of an instruction (R81, R82). -/
def encode : Instr → Frame
  | .start pin duty period run => ⟨commandWord 0x01 pin, duty, period, run⟩
  | .stop pin => ⟨commandWord 0x02 pin, 0, 0, 0⟩
  | .setaux fn => ⟨commandWord 0x03 0, fn, 0, 0⟩
  | .clraux => ⟨commandWord 0x04 0, 0, 0, 0⟩

/-- The bytes of an instruction. -/
def encodeBytes (i : Instr) : List Byte := frameBytes (encode i)

/-- `match` of the row of the opcode table an instruction belongs to (R82). -/
def rowMatch : Instr → Word
  | .start .. => 0x01000000
  | .stop _ => 0x02000000
  | .setaux _ => 0x03000000
  | .clraux => 0x04000000

/-- `mask` of that row (R82). -/
def rowMask : Instr → Word
  | .start .. => 0xFFFFFF00
  | .stop _ => 0xFFFFFF00
  | .setaux _ => 0xFFFFFFFF
  | .clraux => 0xFFFFFFFF

end Sys2Proof
end

