-- ==== Sys2Proof/Machine/State.lean ====
section
/-! DEFINITION. The state of the WGDE as plain data (spec/10_state.md), what the environment is about to supply
(turns, counter samples, callback answers, command frames), the reasons a step can stop, and the state after reset
(spec/70_reset_and_hazards.md rules R186, R187). -/

namespace Sys2Proof.Machine

/-- `CH[i].mode` (R25). -/
inductive Mode where
  | init
  | updateExpiry
  | expires
  | infinite
  deriving DecidableEq, Repr

/-- One `Waveform` record of the Channel Table: the five fields of R21 to R25 and no other (R20). -/
structure Channel where
  /-- `phase_start` (R21). -/
  phaseStart : Word
  /-- `duty_cycles` (R22). -/
  duty : Word
  /-- `period_cycles` (R23). -/
  period : Word
  /-- `expiry_cycles` (R24): relative in `Init` and `UpdateExpiry`, absolute in `Expires`. -/
  expiry : Word
  /-- `mode` (R25). -/
  mode : Mode
  deriving DecidableEq, Repr

/-- The micro-steps of START, by the labels of R101. The value read at S8 is carried to S9. -/
inductive StartStep where
  | s1 | s2 | s3 | s4 | s5 | s6 | s7 | s8
  | s9 (running : Bool)
  | s10 | s11 | s12 | s13 | s14 | s15
  deriving DecidableEq, Repr

/-- The micro-steps of STOP, by the labels of R106. The values read at P7 and P8 are carried to P9. -/
inductive StopStep where
  | p1 | p2 | p3 | p4 | p5 | p6 | p7
  | p8 (enabled : Word)
  | p9 (enabled : Word) (aux : Bool)
  | p10
  deriving DecidableEq, Repr

/-- The micro-steps of SETAUX, by the labels of R109. The value read at A3 is carried to A4. -/
inductive SetauxStep where
  | a1 | a2 | a3
  | a4 (running : Bool)
  | a5
  deriving DecidableEq, Repr

/-- The micro-steps of CLRAUX, by the labels of R110. The value read at B2 is carried to B3. -/
inductive ClrauxStep where
  | b1 | b2
  | b3 (enabled : Word)
  | b4
  deriving DecidableEq, Repr

/-- `port[p].cmd` with its latched operands, and `port[p].step` (R35): the command in progress and which of ITS
micro-steps is next. A step of another command cannot be written. -/
inductive Command where
  | start (pin : Pin) (duty period run : Word) (step : StartStep)
  | stop (pin : Pin) (step : StopStep)
  | setaux (fn : Word) (step : SetauxStep)
  | clraux (step : ClrauxStep)
  deriving DecidableEq, Repr

/-- The decoded command of `port[p].cmd`, without the micro-step (R35). -/
def Command.instr : Command → Instr
  | .start pin duty period run _ => .start pin duty period run
  | .stop pin _ => .stop pin
  | .setaux fn _ => .setaux fn
  | .clraux _ => .clraux

/-- One command port (R35). -/
structure Port where
  /-- The host's frames for this port that it has not taken yet, in the order of issue (R100). The MODEL's own field:
  the host interface, notes/assumptions/5.md. -/
  inbox : List Frame
  /-- `port[p].cmd` and `port[p].step`: none, or the command in progress (R35). -/
  cmd : Option Command
  /-- `port[p].result`, valid when the command has completed (R35, R85). -/
  result : Bool
  deriving DecidableEq, Repr

/-- The state. The fields down to `gp16o` are the state the spec gives the WGDE; those after it are the model's own. -/
structure State where
  /-- The Channel Table, 17 records (R20). -/
  channels : Vector Channel 17
  /-- `enabled` (R26). -/
  enabled : Word
  /-- `level` (R27). -/
  level : Word
  /-- `to_enable` (R28). -/
  toEnable : Word
  /-- `to_disable` (R29). -/
  toDisable : Word
  /-- `first_active_pin` (R31). -/
  firstActivePin : BitVec 5
  /-- `last_active_pin` (R31). -/
  lastActivePin : BitVec 5
  /-- `timer_running` (R32). -/
  timerRunning : Bool
  /-- `timer_armed` (R33). -/
  timerArmed : Bool
  /-- `timer_load`, in timer ticks (R33). -/
  timerLoad : Word
  /-- `timer_ref` (R33). -/
  timerRef : Word
  /-- `aux_valid` (R34). -/
  auxValid : Bool
  /-- `aux_fn` (R34). -/
  auxFn : Word
  /-- The command ports, `N_PORTS` of them (R35, R9). -/
  ports : List Port
  /-- `gpo`, the output latches of pins 0 to 15 (R39). -/
  gpo : BitVec 16
  /-- `gp16o`, the output latch of pin 16 (R39). -/
  gp16o : Bool
  /-- The configuration `Cfg`, which is not state of the WGDE (R48): it is carried here so that a statement about every
  state is one about every configuration. No operation writes it. notes/assumptions/1.md. -/
  cfg : Cfg
  /-- The latest sample of the cycle counter, which is not state of the WGDE (R40, R48). notes/assumptions/2.md. -/
  counter : Word
  /-- Cycles from the latest anchor (reset, the entry of a pass, the end of a pass) to the latest sample: what R40's
  constraints bound. notes/assumptions/2.md. -/
  lapse : Nat
  /-- The port whose step is being made. notes/assumptions/5.md. -/
  active : Nat
  /-- The turns the environment has listed; past the list they are free. notes/assumptions/4.md. -/
  turns : List Turn
  /-- The cycles the environment has listed between counter samples; past the list they are free.
  notes/assumptions/2.md. -/
  elapsed : List Nat
  /-- The callback answers the environment has listed; past the list they are free. notes/assumptions/3.md. -/
  auxAnswers : List Word
  /-- How many free values have been drawn. notes/assumptions/2.md. -/
  draws : Nat
  deriving DecidableEq, Repr

/-- Why the machine stops. -/
inductive Fault where
  /-- Raised by a turn of the dispatch engine whose pass never completes, because a drift loop never ends (R132, R145,
  R198): the pass is indivisible, so nothing steps again. Safe: the spec calls it a hang and never a completed pass. -/
  | passNeverCompletes
  deriving DecidableEq, Repr

/-- Why there is no step. -/
inductive Refusal where
  /-- Raised by `exec` for an instruction without a meaning: no instruction of this model. Safe. -/
  | notModelled (mnemonic : String)
  /-- Raised by a meaning that is asked to run on a port whose command in progress is another (R35: a port holds at
  most one command). `step` never asks. Safe. -/
  | portBusy
  /-- Raised by a meaning that is asked to run on a port that does not exist (R9). `step` never asks. Safe. -/
  | noSuchPort
  /-- Raised by a read of a state-field number that names no field (R49, R75). Safe. -/
  | noSuchField
  deriving DecidableEq, Repr

/-- DESIGN CHOICE (notes/assumptions/6.md, unsafe): a channel record at reset, whose every field R187 leaves unspecified. -/
def Channel.reset : Channel where
  phaseStart := 0
  duty := 0
  period := 0
  expiry := 0
  mode := .init

/-- A port at reset: idle (R186). Its result is unspecified (R187): false, DESIGN CHOICE (notes/assumptions/6.md, unsafe). -/
def Port.reset : Port where
  inbox := []
  cmd := none
  result := false

/-- The state right after reset: the values of R186, and for the fields of R187 the values that
notes/assumptions/6.md names. -/
def State.reset : State where
  channels := Vector.replicate 17 Channel.reset
  enabled := 0
  level := 0
  toEnable := 0
  toDisable := 0
  firstActivePin := 0
  lastActivePin := 0
  timerRunning := false
  timerArmed := false
  timerLoad := 0
  timerRef := 0
  auxValid := false
  auxFn := 0
  ports := Port.reset :: List.replicate (Config.cfg.nPorts - 1) Port.reset
  gpo := 0
  gp16o := false
  cfg := Config.cfg
  counter := Config.counterAtReset
  lapse := 0
  active := 0
  turns := []
  elapsed := []
  auxAnswers := []
  draws := 0

end Sys2Proof.Machine
end

