-- ==== Sys2Proof/Machine/Operands.lean ====
section
/-! DEFINITION. Arithmetic on operands (spec/00_scope.md rules R7, R11 to R14): signed reinterpretation and comparison,
bit counts, the conversion from microseconds, the numbering of channels and modes. -/

namespace Sys2Proof.Machine

/-- `signed(v)` (R13): two's complement. -/
def signed (v : Word) : Int := if v.toNat < 2 ^ 31 then v.toNat else v.toNat - 2 ^ 32

/-- `a <s b` (R13). -/
def slt (a b : Word) : Bool := BitVec.slt a b

/-- `a <=s b` (R13). -/
def sle (a b : Word) : Bool := BitVec.sle a b

/-- `min_s(a, b)`, the smaller under signed comparison (R13). -/
def minS (a b : Word) : Word := if slt b a then b else a

/-- `ctz(v)`, the index of the least significant set bit; no rule applies it to 0 (R14). -/
def ctz (v : Word) : Nat := ((List.range 32).find? fun i => v.getLsbD i).getD 0

/-- `clz(v)`, the number of zero bits above the most significant set bit; no rule applies it to 0 (R14). -/
def clz (v : Word) : Nat := ((List.range 32).find? fun k => v.getLsbD (31 - k)).getD 0

/-- `msb(v) = 31 - clz(v)` (R14). -/
def msb (v : Word) : Nat := 31 - clz v

/-- `micros_to_cycles(u) = (u * CYC_PER_US) mod 2^32` (R7, R41). -/
def microsToCycles (c : Cfg) (u : Word) : Word := u * BitVec.ofNat 32 c.cycPerUs

/-- The pin operand as a channel index, zero-extended (R81). -/
def pinIndex (pin : Pin) : Nat := pin.toNat

/-- The numeric value of a mode (R25). -/
def modeCode : Mode → BitVec 2
  | .init => 0
  | .updateExpiry => 1
  | .expires => 2
  | .infinite => 3

/-- The configuration R8 gives by its defaults, for a caller who fixes only what has none (the ports, the rate and the clock
flag). `T_KICK`, `T_BUDGET` and `T_MAXIRQ` are 2, 14 and 1000000 microseconds; `T_MIN_ARM` is 1.
DESIGN CHOICE (notes/assumptions/21.md, safe): with a fast clock R8 asks for at least 2 and names no other default than 1, which
R10 then excludes. The model takes the least value allowed, 2, and `T_IMMINENT` follows from it. No step uses this definition. -/
def defaultCfg (nPorts cycPerUs : Nat) (clockFast : Bool) : Cfg :=
  let rate : Cfg := { Config.fallback with nPorts := nPorts, cycPerUs := cycPerUs, clockFast := clockFast }
  let least : Word := if clockFast then 2 else 1
  { rate with
    tKick := microsToCycles rate 2
    tBudget := microsToCycles rate 14
    tMaxirq := microsToCycles rate 1000000
    tComp := 0
    tMinArm := least
    tImminent := least + 0 + 1
    reservedPins := 0 }

end Sys2Proof.Machine
end

