-- ==== Sys2Proof/Machine/Flags.lean ====
section
/-! DEFINITION. The status flags of the WGDE: the bits of its masks, the timer's due condition and the scan range. There
are no arithmetic flags (spec/10_state.md rules R45, R26 to R31). -/

namespace Sys2Proof.Machine

/-- `bit(i) = 1 << i` (R11). -/
def bit (i : Nat) : Word := 1#32 <<< i

/-- `m[i]`, bit `i` of a mask (R15). -/
def maskBit (m : Word) (i : Nat) : Bool := m.getLsbD i

/-- `m[i] <- 1`. -/
def setBit (m : Word) (i : Nat) : Word := m ||| bit i

/-- `m[i] <- 0`. -/
def clearBit (m : Word) (i : Nat) : Word := m &&& ~~~(bit i)

/-- `m[i] <- b`. -/
def putBit (m : Word) (i : Nat) (b : Bool) : Word := if b then setBit m i else clearBit m i

/-- The timer's deadline, `timer_ref + timer_load * TICK_CYC` mod 2^32 (R154). -/
def State.deadline (s : State) : Word := s.timerRef + s.timerLoad * BitVec.ofNat 32 s.cfg.tickCyc

/-- The timer is due at the latest sample: running, armed, and the counter has reached the deadline (R154). -/
def State.due (s : State) : Bool := s.timerRunning && s.timerArmed && sle 0 (s.counter - s.deadline)

/-- A request is pending in either mask (R122). -/
def State.requested (s : State) : Bool := (s.toEnable ||| s.toDisable) != 0

/-- RANGE (R123): the scan range of the enabled set; 0 and 0 when it is empty. -/
def State.recomputeRange (s : State) : State :=
  if s.enabled ≠ 0 then
    { s with firstActivePin := BitVec.ofNat 5 (ctz s.enabled), lastActivePin := BitVec.ofNat 5 (msb s.enabled) }
  else
    { s with firstActivePin := 0, lastActivePin := 0 }

/-- The indices of the scan range, ascending (R124). -/
def State.scanRange (s : State) : List Nat :=
  List.range' s.firstActivePin.toNat (s.lastActivePin.toNat + 1 - s.firstActivePin.toNat)

end Sys2Proof.Machine
end

