-- ==== Sys2Proof/Machine/Ops.lean ====
section
/-! DEFINITION. The named operations over the state: the Channel Table, the output latches, the counter and the other
draws, the timer driver (spec/42_timer_driver.md), the command ports, and the entry and the end of a dispatch pass, which
is what the WGDE has in place of taking an exception and returning from one (spec/60_exceptions.md rules R160, R167, R168).
Each write of a field by a command is one operation here, so that a micro-step is one of them. -/

namespace Sys2Proof.Machine

/-! ### The Channel Table (R20) -/

/-- `CH[i]`. The table has the indices 0 to 16; no rule reads another. -/
def State.chan (s : State) (i : Nat) : Channel := (s.channels[i]?).getD Channel.reset

/-- Writes the record `CH[i]`; nothing happens for an index the table does not have. -/
def State.setChan (s : State) (i : Nat) (c : Channel) : State :=
  { s with channels := s.channels.setIfInBounds i c }

/-- `CH[i].duty_cycles <- v`. -/
def State.setDuty (s : State) (i : Nat) (v : Word) : State := s.setChan i { s.chan i with duty := v }

/-- `CH[i].period_cycles <- v`. -/
def State.setPeriod (s : State) (i : Nat) (v : Word) : State := s.setChan i { s.chan i with period := v }

/-- `CH[i].expiry_cycles <- v`. -/
def State.setExpiry (s : State) (i : Nat) (v : Word) : State := s.setChan i { s.chan i with expiry := v }

/-- `CH[i].mode <- m`. -/
def State.setMode (s : State) (i : Nat) (m : Mode) : State := s.setChan i { s.chan i with mode := m }

/-! ### Masks and the callback registration -/

/-- `to_enable <- to_enable | bit(i)`, one indivisible read-modify-write (R63). -/
def State.requestEnable (s : State) (i : Nat) : State := { s with toEnable := setBit s.toEnable i }

/-- `to_disable <- to_disable | bit(i)`, one indivisible read-modify-write (R63). -/
def State.requestDisable (s : State) (i : Nat) : State := { s with toDisable := setBit s.toDisable i }

/-- `enabled[i] <- 0` (R133). -/
def State.disable (s : State) (i : Nat) : State := { s with enabled := clearBit s.enabled i }

/-- `level[i] <- b`. -/
def State.setLevel (s : State) (i : Nat) (b : Bool) : State := { s with level := putBit s.level i b }

/-- `aux_fn <- fn` (R34). -/
def State.setAuxFn (s : State) (fn : Word) : State := { s with auxFn := fn }

/-- `aux_valid <- b` (R34). -/
def State.setAuxValid (s : State) (b : Bool) : State := { s with auxValid := b }

/-! ### Output latches (R39) -/

/-- The latch of pin `i`. -/
def State.latch (s : State) (i : Nat) : Bool := if i = 16 then s.gp16o else s.gpo.getLsbD i

/-- `gpio_set(i)`: one latch high, every other unchanged (R39). -/
def State.gpioSet (s : State) (i : Nat) : State :=
  if i = 16 then { s with gp16o := true } else { s with gpo := s.gpo ||| (1#16 <<< i) }

/-- `gpio_clear(i)`: one latch low, every other unchanged (R39). -/
def State.gpioClear (s : State) (i : Nat) : State :=
  if i = 16 then { s with gp16o := false } else { s with gpo := s.gpo &&& ~~~(1#16 <<< i) }

/-! ### Draws: the counter and the callback (R40, R136; notes/assumptions/2.md and 3.md) -/

/-- The greatest number of cycles below 2^31: two samples of one pass lie no more apart (R40(a)), nor do the end of a pass and the
entry of the next (R40(c)). -/
def spanLimit : Nat := 2147483647

/-- The cycles the next sample's draw offers: what the environment has listed, or a free value. -/
def State.nextElapsed (s : State) : Nat :=
  match s.elapsed with
  | e :: _ => e
  | [] => Config.elapsed s.draws

/-- The draw is used up. -/
def State.elapsedTaken (s : State) : State :=
  match s.elapsed with
  | _ :: es => { s with elapsed := es }
  | [] => { s with draws := s.draws + 1 }

/-- The lapse since the anchor at the next sample: at least `least` cycles more than at the latest one, and no more than
`ceiling` in all, if both can be. -/
def State.nextLapse (s : State) (least ceiling : Nat) : Nat :=
  max (s.lapse + least) (min (s.lapse + s.nextElapsed) ceiling)

/-- `now_cycles()`: one sample, which the field `counter` then holds (R40). -/
def State.sampleWithin (s : State) (least ceiling : Nat) : State :=
  { s.elapsedTaken with
    counter := s.counter + BitVec.ofNat 32 (s.nextLapse least ceiling - s.lapse)
    lapse := s.nextLapse least ceiling }

/-- A sample with no other bound than R40(a) and, between passes, R40(c). -/
def State.sample (s : State) : State := s.sampleWithin 0 spanLimit

/-- The sample `now` before the first sweep of a pass (R124). Where a sweep follows, which takes a cycle (R40(b)), it leaves that
cycle of the span (R40(a)); in a pass with no sweep it has no other bound than R40(a). -/
def State.sampleBeforeSweeps (s : State) : State :=
  s.sampleWithin 0 (if s.enabled = 0 then spanLimit else spanLimit - 1)

/-- The sample that ends a sweep, at least one cycle after the sample that began it (R40(b)). -/
def State.sampleAfterSweep (s : State) : State := s.sampleWithin 1 spanLimit

/-- `AuxCall()`: the callback's answer (R136). -/
def State.auxAnswer (s : State) : Word :=
  match s.auxAnswers with
  | a :: _ => a
  | [] => Config.auxAnswer s.auxFn s.draws

/-- The answer is used up. -/
def State.auxAnswerTaken (s : State) : State :=
  match s.auxAnswers with
  | _ :: as => { s with auxAnswers := as }
  | [] => { s with draws := s.draws + 1 }

/-! ### The one-shot timer driver -/

/-- The reload value for a delay of `c` cycles, in ticks (R153). -/
def State.ticksOf (s : State) (c : Word) : Word := if s.cfg.clockFast then c >>> 1 else c

/-- TARM(c) (R153): writes the reload register, takes the reference sample, arms. -/
def State.tarm (s : State) (c : Word) : State :=
  { s.sample with
    timerLoad := s.ticksOf c
    timerRef := s.sample.counter
    timerArmed := true }

/-- TSTART (R151): one micro-step. -/
def State.tstart (s : State) : State := { s with timerRunning := true }.tarm s.cfg.tKick

/-- TSTOP (R152): one micro-step; the reload value and the reference are kept. -/
def State.tstop (s : State) : State := { s with timerRunning := false, timerArmed := false }

/-! ### Command ports (R35, R100) -/

/-- The port whose step is being made. -/
def State.activePort (s : State) : Option Port := s.ports[s.active]?

/-- Changes the active port and no other. -/
def State.onPort (s : State) (f : Port → Port) : State := { s with ports := s.ports.modify s.active f }

/-- The active port's command and micro-step become `c` (R35, R100). -/
def State.goto (s : State) (c : Command) : State := s.onPort fun p => { p with cmd := some c }

/-- `return b`: the result is placed and the port is free (R15, R85, R100). -/
def State.finish (s : State) (b : Bool) : State := s.onPort fun p => { p with cmd := none, result := b }

/-! ### Entry and end of a dispatch pass -/

/-- Entry (R121, R167): the firing is taken; nothing is saved and no mode changes. The sample of entry is the anchor of
the samples of the pass. -/
def State.enterPass (s : State) : State := { s with timerArmed := false, lapse := 0 }

/-- The delay REARM arms with: the candidate less the compensation, but no less than the minimum (R137). -/
def rearmDelay (c : Cfg) (cand : Word) : Word :=
  if slt (cand - c.tComp) c.tMinArm then c.tMinArm else cand - c.tComp

/-- REARM, which ends every pass; there is nothing to restore (R137, R168). Its sample ends the pass: it is the anchor of the
samples up to the entry of the next (R40(c)). -/
def State.rearm (s : State) (cand : Word) : State := { s.tarm (rearmDelay s.cfg cand) with lapse := 0 }

end Sys2Proof.Machine
end

