-- ==== Sys2Proof/Machine/Callback.lean ====
section
/-! DEFINITION. SETAUX and CLRAUX (spec/40_control_api.md rules R109, R110). -/

namespace Sys2Proof.Machine

/-- The micro-step of SETAUX that `k` names, on the active port (R109). -/
def setauxMicroStep (fn : Word) (k : SetauxStep) (s : State) : State :=
  let next (k' : SetauxStep) (t : State) : State := t.goto (.setaux fn k')
  match k with
  | .a1 => next .a2 (s.setAuxFn fn)
  | .a2 => next .a3 (s.setAuxValid true)
  | .a3 => next (.a4 s.timerRunning) s
  | .a4 running => next .a5 (if running then s else s.tstart)
  | .a5 => s.finish true

/-- SETAUX on the active port: an idle port latches the operand (R100); a port that runs this command makes its next
micro-step. -/
def execSetaux (fn : Word) (s : State) : Host.Outcome State Fault Refusal :=
  match s.activePort with
  | none => .refused .noSuchPort
  | some p =>
    match p.cmd with
    | none => .next (s.goto (.setaux fn .a1))
    | some (.setaux fn' k) => if fn' = fn then .next (setauxMicroStep fn k s) else .refused .portBusy
    | some _ => .refused .portBusy

/-- The micro-step of CLRAUX that `k` names, on the active port (R110). -/
def clrauxMicroStep (k : ClrauxStep) (s : State) : State :=
  let next (k' : ClrauxStep) (t : State) : State := t.goto (.clraux k')
  match k with
  | .b1 => next .b2 (s.setAuxValid false)
  | .b2 => next (.b3 s.enabled) s
  | .b3 e => next .b4 (if e = 0 then s.tstop else s)
  | .b4 => s.finish true

/-- CLRAUX on the active port: an idle port takes it (R100); a port that runs it makes its next micro-step. -/
def execClraux (s : State) : Host.Outcome State Fault Refusal :=
  match s.activePort with
  | none => .refused .noSuchPort
  | some p =>
    match p.cmd with
    | none => .next (s.goto (.clraux .b1))
    | some (.clraux k) => .next (clrauxMicroStep k s)
    | some _ => .refused .portBusy

end Sys2Proof.Machine
end

