-- ==== Sys2Proof/Machine/Start.lean ====
section
/-! DEFINITION. START (spec/40_control_api.md rules R101 to R105). -/

namespace Sys2Proof.Machine

/-- The three validations of S1 (R101): the operands START refuses. -/
def State.startRefuses (s : State) (pin : Pin) (period : Word) : Bool :=
  decide (16 < pinIndex pin) || maskBit s.cfg.reservedPins (pinIndex pin) || period == 0

/-- The micro-step of START that `k` names, on the active port (R101). -/
def startMicroStep (pin : Pin) (duty period run : Word) (k : StartStep) (s : State) : State :=
  let ch := pinIndex pin
  let next (k' : StartStep) (t : State) : State := t.goto (.start pin duty period run k')
  match k with
  | .s1 => if s.startRefuses pin period then s.finish false else next .s2 s
  | .s2 => next .s3 (s.setDuty ch duty)
  | .s3 => next .s4 (s.setPeriod ch period)
  | .s4 => if maskBit s.enabled ch then next .s12 s else next .s5 s
  | .s5 => next .s6 (s.setMode ch .init)
  | .s6 => next .s7 (s.setExpiry ch run)
  | .s7 => next .s8 (s.requestEnable ch)
  | .s8 => next (.s9 s.timerRunning) s
  | .s9 running => next .s10 (if running then s.tarm s.cfg.tKick else s.tstart)
  | .s10 => if maskBit s.toEnable ch then s else next .s11 s
  | .s11 => s.finish true
  | .s12 => next .s13 (s.setMode ch .infinite)
  | .s13 => next .s14 (s.setExpiry ch run)
  | .s14 => next .s15 (if run ≠ 0 then s.setMode ch .updateExpiry else s)
  | .s15 => s.finish true

/-- START on the active port: an idle port latches the operands (R100); a port that runs this command makes its next
micro-step. -/
def execStart (pin : Pin) (duty period run : Word) (s : State) : Host.Outcome State Fault Refusal :=
  match s.activePort with
  | none => .refused .noSuchPort
  | some p =>
    match p.cmd with
    | none => .next (s.goto (.start pin duty period run .s1))
    | some (.start pin' duty' period' run' k) =>
      if pin' = pin ∧ duty' = duty ∧ period' = period ∧ run' = run then
        .next (startMicroStep pin duty period run k s)
      else .refused .portBusy
    | some _ => .refused .portBusy

end Sys2Proof.Machine
end

