-- ==== Sys2Proof/Machine/Stop.lean ====
section
/-! DEFINITION. STOP (spec/40_control_api.md rules R106 to R108). -/

namespace Sys2Proof.Machine

/-- The micro-step of STOP that `k` names, on the active port (R106). -/
def stopMicroStep (pin : Pin) (k : StopStep) (s : State) : State :=
  let ch := pinIndex pin
  let next (k' : StopStep) (t : State) : State := t.goto (.stop pin k')
  match k with
  | .p1 => if 16 < ch then s.finish false else next .p2 s
  | .p2 => if s.timerRunning then next .p3 s else s.finish false
  | .p3 => if maskBit s.enabled ch then next .p4 s else s.finish false
  | .p4 => next .p5 (s.requestDisable ch)
  | .p5 => next .p6 (s.tarm s.cfg.tKick)
  | .p6 => if maskBit s.toDisable ch then s else next .p7 s
  | .p7 => next (.p8 s.enabled) s
  | .p8 e2 => next (.p9 e2 s.auxValid) s
  | .p9 e2 a => next .p10 (if e2 = 0 ∧ a = false then s.tstop else s)
  | .p10 => s.finish true

/-- STOP on the active port: an idle port latches the operand (R100); a port that runs this command makes its next
micro-step. -/
def execStop (pin : Pin) (s : State) : Host.Outcome State Fault Refusal :=
  match s.activePort with
  | none => .refused .noSuchPort
  | some p =>
    match p.cmd with
    | none => .next (s.goto (.stop pin .p1))
    | some (.stop pin' k) => if pin' = pin then .next (stopMicroStep pin k s) else .refused .portBusy
    | some _ => .refused .portBusy

end Sys2Proof.Machine
end

