-- ==== Sys2Proof/Machine/Dispatch.lean ====
section
/-! DEFINITION. One arm per command: its next step on the active port (spec/40_control_api.md rule R100). -/

namespace Sys2Proof.Machine

def exec (i : Instr) (s : State) : Host.Outcome State Fault Refusal :=
  match i with
  | .start pin duty period run => Sys2Proof.Machine.execStart pin duty period run s
  | .stop pin => Sys2Proof.Machine.execStop pin s
  | .setaux fn => Sys2Proof.Machine.execSetaux fn s
  | .clraux => Sys2Proof.Machine.execClraux s

end Sys2Proof.Machine
end

