-- ==== Sys2Proof/Machine/Service.lean ====
section
/-! DEFINITION. SERVICE, what a sweep does to one channel (spec/41_dispatch.md rules R125 to R133). The `now` of a sweep is
the latest sample, so the field `counter`: no sample is taken inside a sweep (R124). -/

namespace Sys2Proof.Machine

/-- Mode `Init` (R126). -/
def Channel.initialised (c : Channel) (now : Word) : Channel :=
  if c.mode = .init then
    { c with phaseStart := now, mode := if c.expiry = 0 then .infinite else .updateExpiry }
  else c

/-- Mode `UpdateExpiry` (R127): the relative duration becomes an absolute deadline. -/
def Channel.converted (c : Channel) : Channel :=
  if c.mode = .updateExpiry then { c with expiry := c.expiry + c.phaseStart, mode := .expires } else c

/-- Both mode conversions, which precede the edge and deadline tests of the same service (R125, R166(e)). -/
def Channel.prepared (c : Channel) (now : Word) : Channel := (c.initialised now).converted

/-- `next_event_cycles` (R128). -/
def Channel.nextEvent (c : Channel) (high : Bool) (now : Word) : Word :=
  c.phaseStart + (if high then c.duty else 0) - now

/-- `expiry_remaining` (R129). -/
def Channel.expiryRemaining (c : Channel) (ne now : Word) : Word :=
  if c.mode = .expires then c.expiry - now else ne + 1

/-- The toggle condition (R130): the edge is due and the deadline lies strictly after it. -/
def edgeDue (ne er : Word) : Bool := sle ne 0 && slt ne er

/-- The drift-correction loop (R132), post-tested: the phase after the advances, or none if `fuel` advances are not
enough. -/
def driftLoop (period duty now : Word) : Nat → Word → Option Word
  | 0, _ => none
  | fuel + 1, phase =>
    if sle (phase + period - now) (-duty) then driftLoop period duty now fuel (phase + period)
    else some (phase + period)

/-- 2^32 advances visit every phase the loop can reach, so a loop that needs more never ends (R145, R198). -/
def driftFuel : Nat := 4294967296

/-- Toggled to high (R131): `phase_start` is not changed. Answers the new `ne` too. -/
def State.toggleHigh (s : State) (i : Nat) (ne : Word) : State × Word :=
  (if (s.chan i).duty ≠ 0 then (s.setLevel i true).gpioSet i else s.setLevel i true, ne + (s.chan i).duty)

/-- The level and the latch of a toggle to low (R132): the latch is left alone for a constant-high channel. -/
def State.lowered (s : State) (i : Nat) : State :=
  if (s.chan i).duty ≠ (s.chan i).period then (s.setLevel i false).gpioClear i else s.setLevel i false

/-- Toggled to low (R132). Answers the new `ne` too; none if the drift loop never ends. -/
def State.toggleLow (s : State) (i : Nat) : Option (State × Word) :=
  match driftLoop (s.chan i).period (s.chan i).duty s.counter driftFuel (s.chan i).phaseStart with
  | none => none
  | some phase => some ((s.lowered i).setChan i { s.chan i with phaseStart := phase }, phase - s.counter)

/-- The edge, if it is due (R130 to R132). -/
def State.edge (s : State) (i : Nat) (ne er : Word) : Option (State × Word) :=
  if edgeDue ne er then
    if maskBit s.level i then s.toggleLow i else some (s.toggleHigh i ne)
  else some (s, ne)

/-- Candidate and expiry (R133): `ne` as it is after any toggle, `er` as it was before. -/
def State.settle (s : State) (i : Nat) (ne er cand : Word) : State × Word :=
  if (s.chan i).mode = .expires ∧ sle er 0 = true then
    (s.disable i, minS cand ne)
  else (s, minS (minS cand ne) er)

/-- SERVICE(i) (R125): the state and the candidate after it; none if its drift loop never ends. -/
def State.service (s : State) (i : Nat) (cand : Word) : Option (State × Word) :=
  let c := (s.chan i).prepared s.counter
  let ne := c.nextEvent (maskBit s.level i) s.counter
  let er := c.expiryRemaining ne s.counter
  ((s.setChan i c).edge i ne er).map fun r => r.1.settle i r.2 er cand

end Sys2Proof.Machine
end

