-- ==== Sys2Proof/Machine/Pass.lean ====
section
/-! DEFINITION. DISPATCH, one pass of the dispatch engine (spec/41_dispatch.md rules R120 to R124, R134 to R137). The answer
`none` is a pass that never completes (R145, R198). -/

namespace Sys2Proof.Machine

/-- APPLY (R122), with RANGE (R123). -/
def State.apply (s : State) : State :=
  { s with
    enabled := (s.enabled &&& ~~~s.toDisable) ||| s.toEnable
    level := s.level &&& ~~~s.toEnable
    toEnable := 0
    toDisable := 0 }.recomputeRange

/-- Step 1 of a pass: APPLY, only if a request is pending (R120, R122). -/
def State.applyRequests (s : State) : State := if s.requested then s.apply else s

/-- The visits of a sweep to the indices listed (R124): an index is serviced iff it is enabled when it is visited. -/
def State.sweepOver : List Nat → State → Word → Option (State × Word)
  | [], s, cand => some (s, cand)
  | i :: rest, s, cand =>
    if maskBit s.enabled i then
      match s.service i cand with
      | none => none
      | some (t, cand') => State.sweepOver rest t cand'
    else State.sweepOver rest s cand

/-- One sweep (R124): the candidate starts at `T_MAXIRQ`, the indices of the scan range in ascending order. -/
def State.sweep (s : State) : Option (State × Word) := State.sweepOver s.scanRange s s.cfg.tMaxirq

/-- The continuation test (R134), at the sample that ended the sweep. -/
def State.sweepAgain (s : State) (entry cand : Word) : Bool :=
  s.enabled != 0 && slt cand s.cfg.tImminent && slt (s.counter - entry) s.cfg.tBudget

/-- The sweeps of a pass entered at the sample `entry` (R124, R134). -/
def State.sweeps (entry : Word) : Nat → State → Option (State × Word)
  | 0, _ => none
  | fuel + 1, s =>
    match s.sweep with
    | none => none
    | some (t, cand) =>
      if t.sampleAfterSweep.sweepAgain entry cand then State.sweeps entry fuel t.sampleAfterSweep
      else some (t.sampleAfterSweep, cand)

/-- Every sweep takes a cycle and the budget is below 2^31 cycles, so a pass makes fewer sweeps than this (R134). -/
def sweepFuel : Nat := 2147483648

/-- Step 2 of a pass, from the sample before the first sweep (R120, R124): no sweep if no channel is enabled. -/
def State.serviceLoop (s : State) (entry : Word) : Option (State × Word) :=
  if s.enabled = 0 then some (s, s.cfg.tMaxirq) else State.sweeps entry sweepFuel s

/-- The delay AUX intersects with the candidate (R136): the answer in cycles, less the time since the sample `now` that
ended step 2. -/
def auxDelay (c : Cfg) (answer sample now : Word) : Word := microsToCycles c answer - (sample - now)

/-- Step 3 of a pass, AUX (R136). -/
def State.consultCallback (s : State) (cand : Word) : State × Word :=
  if s.auxValid then
    let t := s.auxAnswerTaken.sample
    (t, minS cand (auxDelay s.cfg s.auxAnswer t.counter s.counter))
  else (s, cand)

/-- The state in which the sweeps of the pass entered at the latest sample begin: entry, step 1, and the sample `now` of R124. -/
def State.beforeSweeps (s : State) : State := s.enterPass.applyRequests.sampleBeforeSweeps

/-- DISPATCH (R120): the pass entered at the latest sample, whole and indivisible (R64). -/
def State.pass (s : State) : Option State :=
  (s.beforeSweeps.serviceLoop s.counter).map fun r =>
    let q := r.1.consultCallback r.2
    q.1.rearm q.2

end Sys2Proof.Machine
end

