-- ==== Sys2Proof/Machine/Agents.lean ====
section
/-! DEFINITION. The agents' steps (spec/00_scope.md rule R16): whose turn it is, a command port's step (R100, R83), the
dispatch engine's step (R154, R120); and the command frame put before a port. -/

namespace Sys2Proof.Machine

/-- Whose turn it is: what the environment has listed, or a free choice (R66, R67; notes/assumptions/4.md). -/
def State.turn (s : State) : Turn :=
  match s.turns with
  | t :: _ => t
  | [] => Config.schedule s.draws

/-- The turn is used up. -/
def State.turnTaken (s : State) : State :=
  match s.turns with
  | _ :: ts => { s with turns := ts }
  | [] => { s with draws := s.draws + 1 }

/-- The active port's oldest frame is taken (R100). -/
def State.frameTaken (s : State) : State := s.onPort fun p => { p with inbox := p.inbox.tail }

/-- An idle port takes a frame (R100): it runs the command the frame stands for, or completes at once with `false` if the
frame is illegal (R83). -/
def State.acceptFrame (s : State) (f : Frame) : Host.Outcome State Fault Refusal :=
  match decodeBytes (frameBytes f) with
  | .ok i => exec i s.frameTaken
  | .error _ => .next (s.frameTaken.finish false)

/-- The step of the active port (R100): the next micro-step of its command, or the acceptance of a frame, or nothing. A
turn of a port that does not exist changes nothing. -/
def State.portStep (s : State) : Host.Outcome State Fault Refusal :=
  match s.activePort with
  | none => .next s
  | some p =>
    match p.cmd with
    | some c => exec c.instr s
    | none =>
      match p.inbox with
      | f :: _ => s.acceptFrame f
      | [] => .next s

/-- The dispatch engine's step (R154): while the timer runs and is armed the counter is sampled, and if the timer is due at
that sample the pass is entered there. -/
def State.dispatchStep (s : State) : Host.Outcome State Fault Refusal :=
  if s.timerRunning && s.timerArmed then
    if s.sample.due then
      match s.sample.pass with
      | some t => .next t
      | none => .fault .passNeverCompletes
    else .next s.sample
  else .next s

/-- The step of the agent whose turn it is (R16). -/
def State.takeTurn (s : State) : Turn → Host.Outcome State Fault Refusal
  | .port p => { s with active := p }.portStep
  | .dispatch => s.dispatchStep

/-- The frame of a row's bits, as the hardware stores it (R74, R81). -/
def tableFrame (nbits w : Nat) : Frame := (frameOfBytes (tableBytes nbits w)).getD ⟨0, 0, 0, 0⟩

/-- Port 0 idle, with a frame before it that it takes next. -/
def presentFrame (f : Frame) : List Port → List Port
  | [] => [{ Port.reset with inbox := [f] }]
  | p :: ps => { p with inbox := f :: p.inbox, cmd := none } :: ps

end Sys2Proof.Machine
end

