-- ==== Sys2Proof/Machine/Step.lean ====
section
/-! DEFINITION. One step of the machine: one step of one agent (spec/20_memory.md rule R66). -/

namespace Sys2Proof.Machine

/-- One step: the agent whose turn it is makes one (R66). -/
def step (s : State) : Host.Outcome State Fault Refusal := s.turnTaken.takeTurn s.turn

/-- The state with a command frame before port 0, which is idle and whose turn comes next: the very next step takes that
frame. A program is a list of frames put before the ports from outside (notes/assumptions/5.md). -/
def State.withFetchWord (s : State) (nbits w : Nat) : State :=
  { s with ports := presentFrame (tableFrame nbits w) s.ports, turns := .port 0 :: s.turns }

end Sys2Proof.Machine
end

