-- ==== Sys2Proof/Machine/Assembler.lean ====
section
/-! DEFINITION. The textual syntax of a command, the pseudo-commands and the lines of a test program (spec/30_encoding.md
rules R86, R87). Text is a list of characters. -/

namespace Sys2Proof.Machine

/-- `STARTF pin, duty, period` (R87): run forever. -/
def startf (pin : Pin) (duty period : Word) : Instr := .start pin duty period 0

/-- `HIGH pin, period` (R87): constant high. -/
def high (pin : Pin) (period : Word) : Instr := .start pin period period 0

/-- A token of the syntax. -/
inductive Token where
  | name (cs : List Char)
  | num (n : Nat)
  | sign (c : Char)
  deriving DecidableEq, Repr

/-- A character of a name or a number. -/
def isWordChar (c : Char) : Bool := c.isAlphanum || c = '_'

/-- The value of a digit, hexadecimal ones included. -/
def digitValue (c : Char) : Option Nat :=
  if '0' ≤ c ∧ c ≤ '9' then some (c.toNat - 48)
  else if 'a' ≤ c ∧ c ≤ 'f' then some (c.toNat - 87)
  else if 'A' ≤ c ∧ c ≤ 'F' then some (c.toNat - 55)
  else none

/-- The number of digits in a base, most significant first. -/
def numberOf (base : Nat) : List Char → Nat → Option Nat
  | [], n => some n
  | c :: cs, n =>
    match digitValue c with
    | some d => if d < base then numberOf base cs (n * base + d) else none
    | none => none

/-- A word as a token: a number in decimal or `0x` hexadecimal, or a name (R86). -/
def wordToken (w : List Char) : Option Token :=
  match w with
  | '0' :: 'x' :: d :: ds => (numberOf 16 (d :: ds) 0).map .num
  | c :: cs => if c.isDigit then (numberOf 10 (c :: cs) 0).map .num else some (.name (c :: cs))
  | [] => none

/-- The word read so far, if any, before the tokens that follow it. -/
def closeWord (w : List Char) (rest : Option (List Token)) : Option (List Token) :=
  match w with
  | [] => rest
  | _ :: _ =>
    match wordToken w, rest with
    | some t, some ts => some (t :: ts)
    | _, _ => none

/-- The tokens of a text; `w` is the word read so far. -/
def tokensFrom : List Char → List Char → Option (List Token)
  | w, [] => closeWord w (some [])
  | w, c :: cs =>
    if isWordChar c then tokensFrom (w ++ [c]) cs
    else if c = ' ' then closeWord w (tokensFrom [] cs)
    else if c = ',' ∨ c = '(' ∨ c = ')' ∨ c = '=' ∨ c = ':' ∨ c = '@' then
      closeWord w ((tokensFrom [] cs).map (.sign c :: ·))
    else none

/-- A number as a `u8` or `u32` operand, if it fits. -/
def operand (w n : Nat) : Option (BitVec w) := if n < 2 ^ w then some (BitVec.ofNat w n) else none

/-- START of four numbers. -/
def startOf (pin duty period run : Nat) : Option Instr :=
  match operand 8 pin, operand 32 duty, operand 32 period, operand 32 run with
  | some p, some d, some q, some r => some (.start p d q r)
  | _, _, _, _ => none

/-- The names R86 shows for START's operands in the document's call syntax, by their places in the signature; the pin's place
has none. -/
def startNames : List (List Char) := [[], ['d', 'u', 't', 'y'], ['p', 'e', 'r', 'i', 'o', 'd'], ['r', 'u', 'n']]

/-- The operands of a call without the names before them, for a call whose places have the names `names` (R86).
DESIGN CHOICE (notes/assumptions/17.md, safe): R86 shows named operands in the order of the signature only. A name is taken in
its own place and nowhere else: `StartWaveform(5, period=1000, duty=500, run=0)` is no command, and neither is a call with any
other name. A place may do without its name. -/
def dropNames (names : List (List Char)) : List Token → Option (List Token)
  | [] => some []
  | .sign ',' :: ts => (dropNames names.tail ts).map (.sign ',' :: ·)
  | .name cs :: .sign '=' :: .num n :: ts =>
    if names.head? = some cs then (dropNames names ts).map (.num n :: ·) else none
  | t :: ts => (dropNames names ts).map (t :: ·)

/-- The argument list of a call in the document's syntax, without its parentheses. -/
def callArguments : List Token → Option (List Token)
  | .sign '(' :: ts => if ts.getLast? = some (.sign ')') then some ts.dropLast else none
  | _ => none

/-- The operand list of a command, one `,` between any two numbers (R86). -/
def numbersFrom : List Token → Option (List Nat)
  | [.num n] => some [n]
  | .num n :: .sign ',' :: ts => (numbersFrom ts).map (n :: ·)
  | _ => none

/-- The operand list of a command; that of CLRAUX is empty (R86). -/
def numbers (ts : List Token) : Option (List Nat) := if ts = [] then some [] else numbersFrom ts

/-- The mnemonics of this spec and the document's own spellings (R86). -/
inductive Verb where
  | start | stop | setaux | clraux | startf | high
  deriving DecidableEq, Repr

/-- The command of a verb and its operands. -/
def command (v : Verb) (ns : List Nat) : Option Instr :=
  match v, ns with
  | .start, [pin, duty, period, run] => startOf pin duty period run
  | .startf, [pin, duty, period] => startOf pin duty period 0
  | .high, [pin, period] => startOf pin period period 0
  | .stop, [pin] => (operand 8 pin).map .stop
  | .setaux, [fn] => (operand 32 fn).map .setaux
  | .clraux, [] => some .clraux
  | _, _ => none

/-- A command with this spec's mnemonic. -/
def mnemonicVerb (cs : List Char) : Option Verb :=
  if cs = ['S', 'T', 'A', 'R', 'T'] then some .start
  else if cs = ['S', 'T', 'O', 'P'] then some .stop
  else if cs = ['S', 'E', 'T', 'A', 'U', 'X'] then some .setaux
  else if cs = ['C', 'L', 'R', 'A', 'U', 'X'] then some .clraux
  else if cs = ['S', 'T', 'A', 'R', 'T', 'F'] then some .startf
  else if cs = ['H', 'I', 'G', 'H'] then some .high
  else none

/-- `StartWaveform`. -/
def nameStartWaveform : List Char := ['S', 't', 'a', 'r', 't', 'W', 'a', 'v', 'e', 'f', 'o', 'r', 'm']

/-- `StopWaveform`. -/
def nameStopWaveform : List Char := ['S', 't', 'o', 'p', 'W', 'a', 'v', 'e', 'f', 'o', 'r', 'm']

/-- `SetAuxiliaryCallback`. -/
def nameSetAuxiliaryCallback : List Char :=
  ['S', 'e', 't', 'A', 'u', 'x', 'i', 'l', 'i', 'a', 'r', 'y', 'C', 'a', 'l', 'l', 'b', 'a', 'c', 'k']

/-- A command of the textual syntax, from its tokens (R86). -/
def parseCommand : List Token → Option Instr
  | .name cs :: ts =>
    match mnemonicVerb cs with
    | some v => (numbers ts).bind (command v)
    | none =>
      match callArguments ts with
      | none => none
      | some args =>
        if cs = nameStartWaveform then ((dropNames startNames args).bind numbers).bind (command .start)
        else if cs = nameStopWaveform then (numbers args).bind (command .stop)
        else if cs = nameSetAuxiliaryCallback then
          if args = [.name ['n', 'o', 'n', 'e']] then some .clraux else (numbers args).bind (command .setaux)
        else none
  | _ => none

/-- A command of the textual syntax (R86). -/
def assemble (text : List Char) : Option Instr := (tokensFrom [] text).bind parseCommand

/-- A line of a test program (R86): a command issued on a port, or a pass entered at a counter value. -/
inductive ProgramLine where
  | issue (port : Nat) (i : Instr)
  | pass (entry : Word)
  deriving DecidableEq, Repr

/-- A line of a test program, from its tokens. -/
def parseLine : List Token → Option ProgramLine
  | .name ['p', 'o', 'r', 't'] :: .num p :: .sign ':' :: ts => (parseCommand ts).map (.issue p)
  | [.name ['P', 'A', 'S', 'S'], .sign '@', .num t] => (operand 32 t).map .pass
  | _ => none

/-- A line of a test program (R86). -/
def assembleLine (text : List Char) : Option ProgramLine := (tokensFrom [] text).bind parseLine

end Sys2Proof.Machine
end

