-- ==== Sys2Proof/Machine/Fields.lean ====
section
/-! DEFINITION. The state-field numbers (spec/10_state.md rule R49) and their whole-field reads (spec/20_memory.md rule
R75). The numbers are identifiers for a test bench (R174); no command reads by number. -/

namespace Sys2Proof.Machine

/-- One bit at position `i` of a status word, every other bit 0. -/
def flagAt (b : Bool) (i : Nat) : Word := if b then bit i else 0

/-- The word of field `8*i + k` of record `CH[i]`, for the five fields it has (R49). -/
def channelField (c : Channel) : Nat → Option Word
  | 0 => some c.phaseStart
  | 1 => some c.duty
  | 2 => some c.period
  | 3 => some c.expiry
  | 4 => some ((modeCode c.mode).setWidth 32)
  | _ => none

/-- The word of a field numbered 136 or more (R49); `k` is the number less 136. -/
def globalField (s : State) : Nat → Option Word
  | 0 => some s.enabled
  | 1 => some s.level
  | 2 => some s.toEnable
  | 3 => some s.toDisable
  | 4 => some (s.firstActivePin.setWidth 32 ||| (s.lastActivePin.setWidth 32 <<< 8))
  | 5 => some (flagAt s.timerRunning 0 ||| flagAt s.timerArmed 1 ||| flagAt s.cfg.clockFast 2)
  | 6 => some s.timerLoad
  | 7 => some s.timerRef
  | 8 => some (flagAt s.auxValid 0)
  | 9 => some s.auxFn
  | 10 => some (s.gpo.setWidth 32)
  | 11 => some (flagAt s.gp16o 0)
  | _ => none

/-- The read of the state field numbered `n` (R49): the whole field, or a refusal for a number that names none (R75). No
read has a side effect (R65). -/
def State.readField (s : State) (n : Nat) : Except Refusal Word :=
  match (if n < 136 then channelField (s.chan (n / 8)) (n % 8) else globalField s (n - 136)) with
  | some w => .ok w
  | none => .error .noSuchField

end Sys2Proof.Machine
end

