-- ==== Sys2Proof/Safety.lean ====
section
/-! DEFINITION. The terms in which claims are made: a command run alone, the invariants of spec/10_state.md rules R30, R31
and R50, the caller's obligations (R198, R201), and the bounds under which a pass completes. -/

namespace Sys2Proof.Machine

/-! ### What the active port is doing -/

/-- The command of the active port: `none` if there is no such port, `some none` if it is idle. -/
def State.activeCmd (s : State) : Option (Option Command) := s.activePort.map Port.cmd

/-- The active port is idle (R100). -/
def State.idle (s : State) : Prop := s.activeCmd = some none

/-- The active port runs `c`, whose micro-step is next (R35). -/
def State.runs (s : State) (c : Command) : Prop := s.activeCmd = some (some c)

/-- The ports when the active one goes on to `c`. -/
def State.portsAt (s : State) (c : Command) : List Port := s.ports.modify s.active fun p => { p with cmd := some c }

/-- The ports when the active one completes with the result `b` (R85, R100). -/
def State.portsDone (s : State) (b : Bool) : List Port :=
  s.ports.modify s.active fun p => { p with cmd := none, result := b }

/-- `n` steps of one command on the active port with no step of another agent between them. -/
def execAlone (i : Instr) : Nat → State → Host.Outcome State Fault Refusal
  | 0, s => .next s
  | n + 1, s =>
    match exec i s with
    | .next t => execAlone i n t
    | .fault r => .fault r
    | .refused r => .refused r

/-! ### Invariants -/

/-- A mask uses 17 bits: bits 31 to 17 are 0 (R30). -/
def maskFits (m : Word) : Prop := m.toNat < 2 ^ numChannels

/-- START has passed its validations at S1 (R101). -/
def StartStep.validated : StartStep → Bool
  | .s1 => false
  | .s2 | .s3 | .s4 | .s5 | .s6 | .s7 | .s8 | .s9 _ | .s10 | .s11 | .s12 | .s13 | .s14 | .s15 => true

/-- START has written the shape, at S2 and S3 (R101). -/
def StartStep.shaped : StartStep → Bool
  | .s1 | .s2 | .s3 => false
  | .s4 | .s5 | .s6 | .s7 | .s8 | .s9 _ | .s10 | .s11 | .s12 | .s13 | .s14 | .s15 => true

/-- STOP has passed its test at P1 (R106). -/
def StopStep.validated : StopStep → Bool
  | .p1 => false
  | .p2 | .p3 | .p4 | .p5 | .p6 | .p7 | .p8 _ | .p9 _ _ | .p10 => true

/-- A command in progress has passed the tests that precede its micro-step, and a START that is past S3 has given its channel
a period. -/
def State.commandSound (s : State) : Command → Prop
  | .start pin _ period _ k =>
    (k.validated = true → s.startRefuses pin period = false) ∧
      (k.shaped = true → (s.chan (pinIndex pin)).period ≠ 0)
  | .stop pin k => k.validated = true → pinIndex pin ≤ 16
  | .setaux _ _ => True
  | .clraux _ => True

/-- The invariant of the machine. -/
structure State.Sound (s : State) : Prop where
  /-- The configuration meets R10. -/
  cfgValid : s.cfg.valid = true
  /-- There are `N_PORTS` ports (R9). -/
  portCount : s.ports.length = s.cfg.nPorts
  /-- R30, R50(a). -/
  masksFit : maskFits s.enabled ∧ maskFits s.level ∧ maskFits s.toEnable ∧ maskFits s.toDisable
  /-- R31, R50(b). -/
  rangeBounds : ∀ i, maskBit s.enabled i = true → s.firstActivePin.toNat ≤ i ∧ i ≤ s.lastActivePin.toNat
  /-- R50(e), for the channels enabled or about to be. -/
  periodSet : ∀ i, (maskBit s.enabled i || maskBit s.toEnable i) = true → (s.chan i).period ≠ 0
  /-- R101: a reserved pin is never enabled nor requested. -/
  notReserved : ∀ i, (maskBit s.enabled i || maskBit s.toEnable i) = true → maskBit s.cfg.reservedPins i = false
  /-- Every command in progress is sound. -/
  commandsSound : ∀ p ∈ s.ports, ∀ c, p.cmd = some c → s.commandSound c
  /-- R40(a), R40(c): the latest sample lies less than 2^31 cycles after the anchor. -/
  lapseBound : s.lapse ≤ spanLimit

/-- A START for channel `i` is in progress on port number `q`. -/
def State.startsOn (s : State) (q i : Nat) : Prop :=
  ∃ p pin duty period run k, s.ports[q]? = some p ∧ p.cmd = some (.start pin duty period run k) ∧ pinIndex pin = i

/-- R201: no two ports have a START for the same pin in progress. -/
def State.oneStartPerPin (s : State) : Prop := ∀ q r i, s.startsOn q i → s.startsOn r i → q = r

/-- START has read its channel as not enabled and has not set its request bit yet (S5 to S7). -/
def StartStep.preparing : StartStep → Bool
  | .s5 | .s6 | .s7 => true
  | .s1 | .s2 | .s3 | .s4 | .s8 | .s9 _ | .s10 | .s11 | .s12 | .s13 | .s14 | .s15 => false

/-- START has set its request bit and has not seen it cleared yet (S8 to S10). -/
def StartStep.requesting : StartStep → Bool
  | .s8 | .s9 _ | .s10 => true
  | .s1 | .s2 | .s3 | .s4 | .s5 | .s6 | .s7 | .s11 | .s12 | .s13 | .s14 | .s15 => false

/-- The invariant that holds while callers respect R201. -/
structure State.Orderly (s : State) : Prop where
  /-- R50(d): no enabled channel is in mode `Init`. -/
  enabledInitialised : ∀ i, maskBit s.enabled i = true → (s.chan i).mode ≠ .init
  /-- A request to enable has a START that waits for it. -/
  requestOwned : ∀ i, maskBit s.toEnable i = true →
    ∃ p ∈ s.ports, ∃ pin duty period run k,
      p.cmd = some (.start pin duty period run k) ∧ pinIndex pin = i ∧ k.requesting = true
  /-- A channel that a START prepares is not enabled. -/
  preparedDisabled : ∀ p ∈ s.ports, ∀ pin duty period run k,
    p.cmd = some (.start pin duty period run k) → k.preparing = true → maskBit s.enabled (pinIndex pin) = false

/-! ### Bounds -/

/-- The operand bounds of R198 for the shape of channel `i`. -/
def State.shapeInBounds (s : State) (i : Nat) : Prop :=
  0 < (s.chan i).period.toNat ∧ (s.chan i).period.toNat < 2 ^ 31 ∧ (s.chan i).duty.toNat ≤ (s.chan i).period.toNat

/-- Every channel that the next pass may service respects R198. -/
def State.shapesInBounds (s : State) : Prop :=
  ∀ i, (maskBit s.enabled i || maskBit s.toEnable i) = true → s.shapeInBounds i

/-- Channel `i` takes part in the next pass: it is enabled once the requests are folded in (R122). -/
def State.folded (s : State) (i : Nat) : Bool :=
  (maskBit s.enabled i && !maskBit s.toDisable i) || maskBit s.toEnable i

end Sys2Proof.Machine
end

