-- ==== Sys2Proof/Certificates/Slice0/Obligations.lean ====
section
/-! DEFINITION. The statements for the provers. Each says which rule of spec/ it formalises; `stated` and `derived` are in
OBLIGATIONS.json. -/

open Sys2Proof Sys2Proof.Machine

/-! ### Encoding -/

/-- R81, R82, R74: the decoder reads from an instruction's bytes that instruction, with every operand at every value. -/
def Obligations.EncodedBytesDecodeToTheCommand : Prop := ∀ i : Instr, decodeBytes (encodeBytes i) = .ok i

/-- R81, R83: bytes that decode are the encoding of what they decode to, so each command has one encoding. -/
def Obligations.DecodedBytesAreTheEncoding : Prop :=
  ∀ (bs : List Byte) (i : Instr), decodeBytes bs = .ok i → encodeBytes i = bs

/-- R82, R83 (match and mask of each row, the words that must be 0): which frames decode, and to what. -/
def Obligations.FramesDecodeByTheirRow : Prop :=
  ∀ (f : Frame) (i : Instr), decodeFrame f = .ok i ↔
    match i with
    | .start pin duty period run =>
      f.w0 &&& 0xFFFFFF00#32 = 0x01000000#32 ∧ pin = f.w0.setWidth 8 ∧ duty = f.w1 ∧ period = f.w2 ∧ run = f.w3
    | .stop pin =>
      f.w0 &&& 0xFFFFFF00#32 = 0x02000000#32 ∧ pin = f.w0.setWidth 8 ∧ f.w1 = 0 ∧ f.w2 = 0 ∧ f.w3 = 0
    | .setaux fn => f.w0 = 0x03000000#32 ∧ fn = f.w1 ∧ f.w2 = 0 ∧ f.w3 = 0
    | .clraux => f.w0 = 0x04000000#32 ∧ f.w1 = 0 ∧ f.w2 = 0 ∧ f.w3 = 0

/-- Words written out from R81 and R82 (vectors V-ENC-1, V-ENC-4, V-ENC-5, V-ENC-6, V-ENC-11). -/
def Obligations.WrittenOutWordsDecode : Prop :=
  decodeFrame ⟨0x01000005, 0x000001F4, 0x000003E8, 0⟩ = .ok (.start 5 500 1000 0) ∧
  decodeFrame ⟨0x02000005, 0, 0, 0⟩ = .ok (.stop 5) ∧
  decodeFrame ⟨0x03000000, 0x4000A000, 0, 0⟩ = .ok (.setaux 0x4000A000) ∧
  decodeFrame ⟨0x04000000, 0, 0, 0⟩ = .ok .clraux ∧
  decodeFrame ⟨0x01000105, 0x000001F4, 0x000003E8, 0⟩ = .error .reservedBits

/-! ### Steps of a port -/

/-- R100: a step of a port with a command in progress is the next micro-step of that command; an idle port that takes a legal
frame runs the command the frame decodes to; the rest of the machine is given unchanged to `exec`, but for the turn, the
active port and the frame taken. -/
def Obligations.StepRunsTheDecodedCommand : Prop :=
  ∀ (s : State) (p : Nat) (q : Port), s.turn = .port p → s.ports[p]? = some q →
    (∀ c, q.cmd = some c → step s = exec c.instr { s.turnTaken with active := p }) ∧
    (∀ f rest i, q.cmd = none → q.inbox = f :: rest → decodeBytes (frameBytes f) = .ok i →
      step s = exec i { s.turnTaken with active := p, ports := s.ports.set p { q with inbox := rest } })

/-- R83: a frame that matches no row of the opcode map, or has a non-zero value in a word that must be 0, completes at once with
result `false` and changes no other state.
R83 lets a model refuse it instead: that it completes is the model's choice (notes/assumptions/8.md), as are the turn
(notes/assumptions/4.md) and the inbox (notes/assumptions/5.md). -/
def Obligations.IllegalFrameCompletesWithFalse : Prop :=
  ∀ (s : State) (p : Nat) (q : Port) (f : Frame) (rest : List Frame),
    s.turn = .port p → s.ports[p]? = some q → q.cmd = none → q.inbox = f :: rest →
    f.w0 &&& 0xFFFFFF00#32 ≠ 0x01000000#32 →
    (f.w0 &&& 0xFFFFFF00#32 ≠ 0x02000000#32 ∨ f.w1 ≠ 0 ∨ f.w2 ≠ 0 ∨ f.w3 ≠ 0) →
    (f.w0 ≠ 0x03000000#32 ∨ f.w2 ≠ 0 ∨ f.w3 ≠ 0) →
    (f.w0 ≠ 0x04000000#32 ∨ f.w1 ≠ 0 ∨ f.w2 ≠ 0 ∨ f.w3 ≠ 0) →
    step s = .next { s.turnTaken with
      active := p
      ports := s.ports.set p { inbox := rest, cmd := none, result := false } }

/-- R188: with every port idle, no frame before any and the timer stopped, a step changes nothing but the turn.
The turn and the active port are the model's own (notes/assumptions/4.md, 5.md). -/
def Obligations.IdleMachineDoesNothing : Prop :=
  ∀ s : State, (∀ p ∈ s.ports, p.cmd = none ∧ p.inbox = []) → s.timerRunning = false →
    step s = .next (match s.turn with
      | .port p => { s.turnTaken with active := p }
      | .dispatch => s.turnTaken)

/-- R35, R62: a step of one port leaves the other ports as they are. -/
def Obligations.PortStepsAreIsolated : Prop :=
  ∀ (s t : State) (p q : Nat), s.turn = .port p → step s = .next t → q ≠ p →
    t.ports.length = s.ports.length ∧ t.ports[q]? = s.ports[q]?

/-! ### START -/

/-- R102, R101 (S1): an invalid pin, a reserved pin or a zero period completes with `false` in two steps of START run alone, its
acceptance and S1, and nothing but the port's result is written. -/
def Obligations.StartRefusesWithoutSideEffects : Prop :=
  ∀ (s : State) (pin : Pin) (duty period run : Word), s.idle →
    (16 < pin.toNat ∨ s.cfg.reservedPins.getLsbD pin.toNat = true ∨ period = 0) →
    execAlone (.start pin duty period run) 2 s = .next { s with ports := s.portsDone false }

/-- R101, R100: every step of START, from its acceptance to its completion, answers the next state the micro-step gives, and
changes nothing else. -/
def Obligations.StartMicroStepsComplete : Prop :=
  ∀ (s : State) (pin : Pin) (duty period run : Word),
    let i : Instr := .start pin duty period run
    let atStep (k : StartStep) : Prop := s.runs (.start pin duty period run k)
    let upto (k : StartStep) : List Port := s.portsAt (.start pin duty period run k)
    let put (c : Channel) : Vector Channel 17 := s.channels.setIfInBounds pin.toNat c
    let c := s.chan pin.toNat
    (s.idle → exec i s = .next { s with ports := upto .s1 }) ∧
    (atStep .s1 → (16 < pin.toNat ∨ s.cfg.reservedPins.getLsbD pin.toNat = true ∨ period = 0) →
      exec i s = .next { s with ports := s.portsDone false }) ∧
    (atStep .s1 → pin.toNat ≤ 16 → s.cfg.reservedPins.getLsbD pin.toNat = false → period ≠ 0 →
      exec i s = .next { s with ports := upto .s2 }) ∧
    (atStep .s2 → exec i s = .next { s with channels := put { c with duty := duty }, ports := upto .s3 }) ∧
    (atStep .s3 → exec i s = .next { s with channels := put { c with period := period }, ports := upto .s4 }) ∧
    (atStep .s4 → s.enabled.getLsbD pin.toNat = false → exec i s = .next { s with ports := upto .s5 }) ∧
    (atStep .s4 → s.enabled.getLsbD pin.toNat = true → exec i s = .next { s with ports := upto .s12 }) ∧
    (atStep .s5 → exec i s = .next { s with channels := put { c with mode := .init }, ports := upto .s6 }) ∧
    (atStep .s6 → exec i s = .next { s with channels := put { c with expiry := run }, ports := upto .s7 }) ∧
    (atStep .s7 → exec i s = .next { s with toEnable := s.toEnable ||| (1#32 <<< pin.toNat), ports := upto .s8 }) ∧
    (atStep .s8 → exec i s = .next { s with ports := upto (.s9 s.timerRunning) }) ∧
    (atStep (.s9 true) → exec i s = .next { s.tarm s.cfg.tKick with ports := upto .s10 }) ∧
    (atStep (.s9 false) → exec i s = .next { s.tstart with ports := upto .s10 }) ∧
    (atStep .s10 → s.toEnable.getLsbD pin.toNat = true → exec i s = .next s) ∧
    (atStep .s10 → s.toEnable.getLsbD pin.toNat = false → exec i s = .next { s with ports := upto .s11 }) ∧
    (atStep .s11 → exec i s = .next { s with ports := s.portsDone true }) ∧
    (atStep .s12 → exec i s = .next { s with channels := put { c with mode := .infinite }, ports := upto .s13 }) ∧
    (atStep .s13 → exec i s = .next { s with channels := put { c with expiry := run }, ports := upto .s14 }) ∧
    (atStep .s14 → run = 0 → exec i s = .next { s with ports := upto .s15 }) ∧
    (atStep .s14 → run ≠ 0 →
      exec i s = .next { s with channels := put { c with mode := .updateExpiry }, ports := upto .s15 }) ∧
    (atStep .s15 → exec i s = .next { s with ports := s.portsDone true })

/-- R101, R103: START on a channel that is not enabled, run alone, in ten steps writes the shape, the mode and the duration,
sets the request bit, kicks the timer and holds at S10. It changes nothing else: neither `enabled`, `level`,
`phase_start` nor a latch.
What the counter sample leaves (`counter`, `lapse`, `elapsed`, `draws`) is the model's own (notes/assumptions/2.md). -/
def Obligations.StartEnablePathKicksAndHolds : Prop :=
  ∀ (s : State) (pin : Pin) (duty period run : Word), s.idle → pin.toNat ≤ 16 →
    s.cfg.reservedPins.getLsbD pin.toNat = false → period ≠ 0 → s.enabled.getLsbD pin.toNat = false →
    execAlone (.start pin duty period run) 10 s = .next { s.sample with
      channels := s.channels.setIfInBounds pin.toNat
        { phaseStart := (s.chan pin.toNat).phaseStart, duty := duty, period := period, expiry := run, mode := .init }
      toEnable := s.toEnable ||| (1#32 <<< pin.toNat)
      timerRunning := true
      timerArmed := true
      timerLoad := if s.cfg.clockFast then s.cfg.tKick >>> 1 else s.cfg.tKick
      timerRef := s.sample.counter
      ports := s.portsAt (.start pin duty period run .s10) }

/-- R101, R104: START on an enabled channel, run alone, completes with `true` in nine steps; it sets no request bit and does
not touch the timer. -/
def Obligations.StartUpdatePathCompletesAtOnce : Prop :=
  ∀ (s : State) (pin : Pin) (duty period run : Word), s.idle → pin.toNat ≤ 16 →
    s.cfg.reservedPins.getLsbD pin.toNat = false → period ≠ 0 → s.enabled.getLsbD pin.toNat = true →
    execAlone (.start pin duty period run) 9 s = .next { s with
      channels := s.channels.setIfInBounds pin.toNat
        { phaseStart := (s.chan pin.toNat).phaseStart, duty := duty, period := period, expiry := run,
          mode := if run = 0 then .infinite else .updateExpiry }
      ports := s.portsDone true }

/-- R105, R154, R203: while the timer is stopped, neither the port itself nor the dispatch engine lifts the hold of a START at
S10 whose request bit is set. -/
def Obligations.StoppedTimerNeverLiftsTheHold : Prop :=
  ∀ (s : State) (p : Nat) (q : Port) (pin : Pin) (duty period run : Word),
    s.ports[p]? = some q → q.cmd = some (.start pin duty period run .s10) →
    s.toEnable.getLsbD pin.toNat = true → s.timerRunning = false →
    (s.turn = .port p → step s = .next { s.turnTaken with active := p }) ∧
    (s.turn = .dispatch → step s = .next s.turnTaken)

/-! ### STOP -/

/-- R106 (P1 to P3), R161: STOP refuses in this order and writes nothing but its result. -/
def Obligations.StopRefusesWithoutSideEffects : Prop :=
  ∀ (s : State) (pin : Pin), s.idle →
    (16 < pin.toNat → execAlone (.stop pin) 2 s = .next { s with ports := s.portsDone false }) ∧
    (pin.toNat ≤ 16 → s.timerRunning = false →
      execAlone (.stop pin) 3 s = .next { s with ports := s.portsDone false }) ∧
    (pin.toNat ≤ 16 → s.timerRunning = true → s.enabled.getLsbD pin.toNat = false →
      execAlone (.stop pin) 4 s = .next { s with ports := s.portsDone false })

/-- R106, R100: every step of STOP, from its acceptance to its completion, answers the next state the micro-step gives, and
changes nothing else. -/
def Obligations.StopMicroStepsComplete : Prop :=
  ∀ (s : State) (pin : Pin),
    let i : Instr := .stop pin
    let atStep (k : StopStep) : Prop := s.runs (.stop pin k)
    let upto (k : StopStep) : List Port := s.portsAt (.stop pin k)
    (s.idle → exec i s = .next { s with ports := upto .p1 }) ∧
    (atStep .p1 → 16 < pin.toNat → exec i s = .next { s with ports := s.portsDone false }) ∧
    (atStep .p1 → pin.toNat ≤ 16 → exec i s = .next { s with ports := upto .p2 }) ∧
    (atStep .p2 → s.timerRunning = false → exec i s = .next { s with ports := s.portsDone false }) ∧
    (atStep .p2 → s.timerRunning = true → exec i s = .next { s with ports := upto .p3 }) ∧
    (atStep .p3 → s.enabled.getLsbD pin.toNat = false → exec i s = .next { s with ports := s.portsDone false }) ∧
    (atStep .p3 → s.enabled.getLsbD pin.toNat = true → exec i s = .next { s with ports := upto .p4 }) ∧
    (atStep .p4 → exec i s = .next { s with toDisable := s.toDisable ||| (1#32 <<< pin.toNat), ports := upto .p5 }) ∧
    (atStep .p5 → exec i s = .next { s.tarm s.cfg.tKick with ports := upto .p6 }) ∧
    (atStep .p6 → s.toDisable.getLsbD pin.toNat = true → exec i s = .next s) ∧
    (atStep .p6 → s.toDisable.getLsbD pin.toNat = false → exec i s = .next { s with ports := upto .p7 }) ∧
    (atStep .p7 → exec i s = .next { s with ports := upto (.p8 s.enabled) }) ∧
    (∀ e, atStep (.p8 e) → exec i s = .next { s with ports := upto (.p9 e s.auxValid) }) ∧
    (atStep (.p9 0 false) → exec i s = .next { s.tstop with ports := upto .p10 }) ∧
    (∀ e a, atStep (.p9 e a) → (e ≠ 0 ∨ a = true) → exec i s = .next { s with ports := upto .p10 }) ∧
    (atStep .p10 → exec i s = .next { s with ports := s.portsDone true })

/-- R106 (P1 to P6): STOP of an enabled channel while the timer runs, run alone, in six steps sets its request bit, kicks the
timer and holds at P6; it writes no channel field and no latch.
What the counter sample leaves (`counter`, `lapse`, `elapsed`, `draws`) is the model's own (notes/assumptions/2.md). -/
def Obligations.StopRequestsKicksAndHolds : Prop :=
  ∀ (s : State) (pin : Pin), s.idle → pin.toNat ≤ 16 → s.timerRunning = true →
    s.enabled.getLsbD pin.toNat = true →
    execAlone (.stop pin) 6 s = .next { s.sample with
      toDisable := s.toDisable ||| (1#32 <<< pin.toNat)
      timerArmed := true
      timerLoad := if s.cfg.clockFast then s.cfg.tKick >>> 1 else s.cfg.tKick
      timerRef := s.sample.counter
      ports := s.portsAt (.stop pin .p6) }

/-- R106 (P6 to P10), R108: once its bit is cleared STOP completes with `true` in five steps, and it stops the timer iff no
channel is enabled and no callback is registered. -/
def Obligations.StopShutsTheIdleTimerDown : Prop :=
  ∀ (s : State) (pin : Pin), s.runs (.stop pin .p6) → s.toDisable.getLsbD pin.toNat = false →
    execAlone (.stop pin) 5 s = .next
      (if s.enabled = 0 ∧ s.auxValid = false then
        { s with timerRunning := false, timerArmed := false, ports := s.portsDone true }
      else { s with ports := s.portsDone true })

/-! ### SETAUX and CLRAUX -/

/-- R109, R100: every step of SETAUX, from its acceptance to its completion. -/
def Obligations.SetauxMicroStepsComplete : Prop :=
  ∀ (s : State) (fn : Word),
    let i : Instr := .setaux fn
    let atStep (k : SetauxStep) : Prop := s.runs (.setaux fn k)
    let upto (k : SetauxStep) : List Port := s.portsAt (.setaux fn k)
    (s.idle → exec i s = .next { s with ports := upto .a1 }) ∧
    (atStep .a1 → exec i s = .next { s with auxFn := fn, ports := upto .a2 }) ∧
    (atStep .a2 → exec i s = .next { s with auxValid := true, ports := upto .a3 }) ∧
    (atStep .a3 → exec i s = .next { s with ports := upto (.a4 s.timerRunning) }) ∧
    (atStep (.a4 true) → exec i s = .next { s with ports := upto .a5 }) ∧
    (atStep (.a4 false) → exec i s = .next { s.tstart with ports := upto .a5 }) ∧
    (atStep .a5 → exec i s = .next { s with ports := s.portsDone true })

/-- R109: SETAUX run alone completes with `true` in six steps: the callback is registered, and the timer is started iff it was
stopped.
What the counter sample leaves (`counter`, `lapse`, `elapsed`, `draws`) is the model's own (notes/assumptions/2.md). -/
def Obligations.SetauxRegistersAndStartsTheTimer : Prop :=
  ∀ (s : State) (fn : Word), s.idle →
    (s.timerRunning = true → execAlone (.setaux fn) 6 s =
      .next { s with auxFn := fn, auxValid := true, ports := s.portsDone true }) ∧
    (s.timerRunning = false → execAlone (.setaux fn) 6 s = .next { s.sample with
      auxFn := fn
      auxValid := true
      timerRunning := true
      timerArmed := true
      timerLoad := if s.cfg.clockFast then s.cfg.tKick >>> 1 else s.cfg.tKick
      timerRef := s.sample.counter
      ports := s.portsDone true })

/-- R110, R100: every step of CLRAUX, from its acceptance to its completion. -/
def Obligations.ClrauxMicroStepsComplete : Prop :=
  ∀ s : State,
    let i : Instr := .clraux
    let atStep (k : ClrauxStep) : Prop := s.runs (.clraux k)
    let upto (k : ClrauxStep) : List Port := s.portsAt (.clraux k)
    (s.idle → exec i s = .next { s with ports := upto .b1 }) ∧
    (atStep .b1 → exec i s = .next { s with auxValid := false, ports := upto .b2 }) ∧
    (atStep .b2 → exec i s = .next { s with ports := upto (.b3 s.enabled) }) ∧
    (atStep (.b3 0) → exec i s = .next { s.tstop with ports := upto .b4 }) ∧
    (∀ e, atStep (.b3 e) → e ≠ 0 → exec i s = .next { s with ports := upto .b4 }) ∧
    (atStep .b4 → exec i s = .next { s with ports := s.portsDone true })

/-- R110: CLRAUX run alone completes with `true` in five steps: `aux_valid` is cleared, `aux_fn` keeps its value, and the timer
is stopped iff no channel is enabled. -/
def Obligations.ClrauxStopsTheIdleTimer : Prop :=
  ∀ s : State, s.idle → execAlone .clraux 5 s = .next
    (if s.enabled = 0 then
      { s with auxValid := false, timerRunning := false, timerArmed := false, ports := s.portsDone true }
    else { s with auxValid := false, ports := s.portsDone true })

/-! ### What commands leave alone -/

/-- R68, R61: no command writes `enabled`, `level`, a `phase_start`, the scan range or an output latch. -/
def Obligations.CommandsNeverWriteEngineState : Prop :=
  ∀ (i : Instr) (s t : State), exec i s = .next t →
    t.enabled = s.enabled ∧ t.level = s.level ∧ (∀ j, (t.chan j).phaseStart = (s.chan j).phaseStart) ∧
    t.firstActivePin = s.firstActivePin ∧ t.lastActivePin = s.lastActivePin ∧ t.gpo = s.gpo ∧ t.gp16o = s.gp16o

/-- R61, R106: START writes the record of its own channel only, and neither `to_disable` nor the callback registration; STOP, SETAUX
and CLRAUX write no record and do not write `to_enable`. -/
def Obligations.CommandsWriteOnlyTheirFields : Prop :=
  (∀ (pin : Pin) (duty period run : Word) (s t : State), exec (.start pin duty period run) s = .next t →
    (∀ j, j ≠ pin.toNat → t.chan j = s.chan j) ∧ t.toDisable = s.toDisable ∧
    t.auxValid = s.auxValid ∧ t.auxFn = s.auxFn) ∧
  (∀ (pin : Pin) (s t : State), exec (.stop pin) s = .next t →
    t.channels = s.channels ∧ t.toEnable = s.toEnable ∧ t.auxValid = s.auxValid ∧ t.auxFn = s.auxFn) ∧
  (∀ (fn : Word) (s t : State), exec (.setaux fn) s = .next t →
    t.channels = s.channels ∧ t.toEnable = s.toEnable ∧ t.toDisable = s.toDisable) ∧
  (∀ s t : State, exec .clraux s = .next t →
    t.channels = s.channels ∧ t.toEnable = s.toEnable ∧ t.toDisable = s.toDisable ∧ t.auxFn = s.auxFn)

/-- R63: commands only add request bits, so no command loses another's request. -/
def Obligations.CommandsNeverLoseARequest : Prop :=
  ∀ (i : Instr) (s t : State), exec i s = .next t → ∀ j,
    (maskBit s.toEnable j = true → maskBit t.toEnable j = true) ∧
    (maskBit s.toDisable j = true → maskBit t.toDisable j = true)

/-- R7, R188: the configuration does not change. -/
def Obligations.ConfigurationIsConstant : Prop := ∀ s t : State, step s = .next t → t.cfg = s.cfg

/-! ### The counter and the timer -/

/-- R40(a), R40(b): a sample lies less than 2^31 cycles after the sample before it, and the sample that ends a sweep at least one
cycle after it; the cycles counted are the change of the counter modulo 2^32. The sample before the sweeps of a pass leaves a
cycle for the sweep, and with no channel enabled it is a sample like any other.
The anchor and the count of cycles are the model's own (notes/assumptions/2.md). -/
def Obligations.SamplesAdvanceWithinTheirBounds : Prop :=
  ∀ s : State, s.lapse < spanLimit →
    (s.sample.counter - s.counter).toNat = s.sample.lapse - s.lapse ∧ s.sample.lapse ≤ spanLimit ∧
    s.lapse ≤ s.sample.lapse ∧
    (s.sampleAfterSweep.counter - s.counter).toNat = s.sampleAfterSweep.lapse - s.lapse ∧
    s.sampleAfterSweep.lapse ≤ spanLimit ∧ s.lapse < s.sampleAfterSweep.lapse ∧
    (s.enabled = 0 → s.sampleBeforeSweeps = s.sample) ∧
    (s.enabled ≠ 0 → s.lapse ≤ s.sampleBeforeSweeps.lapse ∧ s.sampleBeforeSweeps.lapse < spanLimit)

/-- R151, R152, R153: what the timer driver's operations write; all else is as the counter sample leaves it.
What the counter sample leaves (`counter`, `lapse`, `elapsed`, `draws`) is the model's own (notes/assumptions/2.md). -/
def Obligations.TimerDriverWritesItsRegisters : Prop :=
  ∀ (s : State) (c : Word),
    (c.toNat < 2 ^ 31 →
      (s.tarm c).timerLoad.toNat = (if s.cfg.clockFast then c.toNat / 2 else c.toNat)) ∧
    s.tarm c = { s with
      timerLoad := (s.tarm c).timerLoad, timerRef := s.sample.counter, timerArmed := true
      counter := s.sample.counter, lapse := s.sample.lapse, elapsed := s.sample.elapsed, draws := s.sample.draws } ∧
    s.tstart = { s.tarm s.cfg.tKick with timerRunning := true } ∧
    s.tstop = { s with timerRunning := false, timerArmed := false }

/-- R156: two TSTOPs leave the state of one; two TSTARTs leave the WGDE state of one, except that `timer_ref` is the later
sample.
What the counter sample leaves (`counter`, `lapse`, `elapsed`, `draws`) is the model's own (notes/assumptions/2.md). -/
def Obligations.TimerStartAndStopAreIdempotent : Prop :=
  ∀ s : State, s.tstop.tstop = s.tstop ∧
    s.tstart.tstart.timerRef = s.tstart.sample.counter ∧
    { s.tstart.tstart with
      timerRef := s.tstart.timerRef, counter := s.tstart.counter, lapse := s.tstart.lapse, elapsed := s.tstart.elapsed,
      draws := s.tstart.draws } = s.tstart

/-- R154, R120: a turn of the dispatch engine enters a pass exactly if the timer runs, is armed and has reached its deadline, and then
makes the whole pass in one step; a stopped or disarmed timer lets nothing happen, and one not yet due only the sample.
That one sample serves the due test and the entry is the model's choice (notes/assumptions/2.md), and so is the reading of a pass
that never completes as the fault `passNeverCompletes` (notes/assumptions/7.md). -/
def Obligations.PassIsEnteredWhenTheTimerIsDue : Prop :=
  ∀ s : State, s.turn = .dispatch →
    ((s.timerRunning = false ∨ s.timerArmed = false) → step s = .next s.turnTaken) ∧
    (s.timerRunning = true → s.timerArmed = true →
      let late : Int := signed (s.turnTaken.sample.counter -
        (s.timerRef + s.timerLoad * (if s.cfg.clockFast then 2 else 1)))
      (late < 0 → step s = .next s.turnTaken.sample) ∧
      (0 ≤ late → ∀ t, s.turnTaken.sample.pass = some t → step s = .next t) ∧
      (0 ≤ late → s.turnTaken.sample.pass = none → step s = .fault .passNeverCompletes))

/-! ### Step 1 of a pass -/

/-- R122, R166(a): step 1 of a pass does nothing unless a request is pending; then it folds both masks, enable wins, `level` starts
low, both masks become 0, the scan range is recomputed, and neither a record nor a latch nor anything else is written. -/
def Obligations.ApplyFoldsTheRequests : Prop :=
  ∀ s : State,
    (s.toEnable = 0 → s.toDisable = 0 → s.applyRequests = s) ∧
    (s.toEnable ≠ 0 ∨ s.toDisable ≠ 0 →
      (∀ i, maskBit s.applyRequests.enabled i =
        ((maskBit s.enabled i && !maskBit s.toDisable i) || maskBit s.toEnable i)) ∧
      (∀ i, maskBit s.applyRequests.level i = (maskBit s.level i && !maskBit s.toEnable i)) ∧
      s.applyRequests.toEnable = 0 ∧ s.applyRequests.toDisable = 0 ∧
      s.applyRequests.recomputeRange = s.applyRequests ∧
      s.applyRequests = { s with
        enabled := s.applyRequests.enabled, level := s.applyRequests.level, toEnable := 0, toDisable := 0
        firstActivePin := s.applyRequests.firstActivePin, lastActivePin := s.applyRequests.lastActivePin })

/-- R123, R31: RANGE gives the least and the greatest enabled index, and 0 and 0 for the empty set; a pass recomputes the range in step 1
and nowhere else. -/
def Obligations.RangeBoundsTheEnabledSet : Prop :=
  ∀ s : State,
    (s.enabled = 0 → s.recomputeRange.firstActivePin = 0 ∧ s.recomputeRange.lastActivePin = 0) ∧
    (s.enabled ≠ 0 →
      maskBit s.enabled s.recomputeRange.firstActivePin.toNat = true ∧
      maskBit s.enabled s.recomputeRange.lastActivePin.toNat = true ∧
      ∀ i, maskBit s.enabled i = true →
        s.recomputeRange.firstActivePin.toNat ≤ i ∧ i ≤ s.recomputeRange.lastActivePin.toNat) ∧
    (∀ t, s.pass = some t → t.firstActivePin = s.applyRequests.firstActivePin ∧
      t.lastActivePin = s.applyRequests.lastActivePin)

/-! ### SERVICE -/

/-- R126, R131, R133 (vector V-SVC-1): a new channel that runs for ever is given its phase at the sweep's `now`, enters `Infinite`
and is toggled high; its latch is set unless its duty is 0. -/
def Obligations.FreshForeverChannelStartsHigh : Prop :=
  ∀ (s : State) (i : Nat) (cand : Word), i ≤ 16 → (s.chan i).mode = .init → (s.chan i).expiry = 0 →
    maskBit s.level i = false →
    ∃ t, s.service i cand = some (t, minS (minS cand (s.chan i).duty) 1) ∧
      t.chan i = { s.chan i with phaseStart := s.counter, mode := .infinite } ∧
      maskBit t.level i = true ∧ t.enabled = s.enabled ∧
      t.latch i = (if (s.chan i).duty = 0 then s.latch i else true)

/-- R126, R127, R104: a new channel with a finite duration below 2^31 enters `Expires` in the same service, with its deadline
`run` cycles after the sweep's `now`, and is toggled high; its latch is set unless its duty is 0.
Whatever its level, a channel in `Init` or `UpdateExpiry` is served as the channel that the mode conversions make of it: the phase
of `Init` is the sweep's `now`, and the deadline of a finite duration is the duration after the PHASE, not after `now`. -/
def Obligations.FreshFiniteChannelGetsItsDeadline : Prop :=
  ∀ (s : State) (i : Nat) (cand : Word),
    (i ≤ 16 → (s.chan i).mode = .init →
      0 < (s.chan i).expiry.toNat → (s.chan i).expiry.toNat < 2 ^ 31 → maskBit s.level i = false →
      ∃ t, s.service i cand = some (t, minS (minS cand (s.chan i).duty) (s.chan i).expiry) ∧
        t.chan i = { s.chan i with
          phaseStart := s.counter, expiry := (s.chan i).expiry + s.counter, mode := .expires } ∧
        maskBit t.level i = true ∧ t.enabled = s.enabled ∧
        t.latch i = (if (s.chan i).duty = 0 then s.latch i else true)) ∧
    ((s.chan i).mode = .init → (s.chan i).expiry = 0 → s.service i cand =
      (s.setChan i { s.chan i with phaseStart := s.counter, mode := .infinite }).service i cand) ∧
    ((s.chan i).mode = .init → (s.chan i).expiry ≠ 0 → s.service i cand =
      (s.setChan i { s.chan i with
        phaseStart := s.counter, expiry := (s.chan i).expiry + s.counter, mode := .expires }).service i cand) ∧
    ((s.chan i).mode = .updateExpiry → s.service i cand =
      (s.setChan i { s.chan i with
        expiry := (s.chan i).expiry + (s.chan i).phaseStart, mode := .expires }).service i cand)

/-- R200: a duration of 2^31 cycles or more expires in the first service, without an edge. -/
def Obligations.HugeDurationExpiresAtOnce : Prop :=
  ∀ (s : State) (i : Nat) (cand : Word), i ≤ 16 → (s.chan i).mode = .init →
    2 ^ 31 ≤ (s.chan i).expiry.toNat → maskBit s.level i = false →
    ∃ t, s.service i cand = some (t, minS cand 0) ∧ maskBit t.enabled i = false ∧
      t.level = s.level ∧ t.gpo = s.gpo ∧ t.gp16o = s.gp16o ∧ (t.chan i).mode = .expires

/-- R128, R129, R130, R133: a service in which neither the edge nor a deadline is due changes nothing but the candidate, which
folds the time to the edge and then the time to the deadline, or the sentinel `ne + 1` of a channel without one. -/
def Obligations.ServiceBeforeTheEdgeChangesNothing : Prop :=
  ∀ (s : State) (i : Nat) (cand : Word),
    let ne := (s.chan i).phaseStart + (if maskBit s.level i then (s.chan i).duty else 0) - s.counter
    let er := (s.chan i).expiry - s.counter
    0 < signed ne →
      ((s.chan i).mode = .infinite → s.service i cand = some (s, minS (minS cand ne) (ne + 1))) ∧
      ((s.chan i).mode = .expires → 0 < signed er → s.service i cand = some (s, minS (minS cand ne) er))

/-- R133, R207: at or after its deadline, with no edge due before it, a channel loses its `enabled` bit and nothing else. -/
def Obligations.ExpiryClearsOnlyTheEnabledBit : Prop :=
  ∀ (s : State) (i : Nat) (cand : Word), (s.chan i).mode = .expires →
    let ne := (s.chan i).phaseStart + (if maskBit s.level i then (s.chan i).duty else 0) - s.counter
    let er := (s.chan i).expiry - s.counter
    signed er ≤ 0 → (0 < signed ne ∨ signed er ≤ signed ne) →
    s.service i cand = some ({ s with enabled := s.enabled &&& ~~~(1#32 <<< i) }, minS cand ne)

/-- R130 to R133, R166(c): a due edge that lies before the deadline, or of a channel without one, is driven, however late; the
channel is disabled in the same service if the deadline has passed too.
A rising edge sets the level bit and, unless the duty is 0, the latch, and leaves the phase. A falling edge clears the level
bit and, unless the duty equals the period, the latch, and the phase becomes the drift loop's answer. The candidate folds `ne` as
the edge leaves it, and then the `er` of before the edge. Nothing else changes.
That the loop has a fuel is the model's own (notes/assumptions/16.md). -/
def Obligations.LateEdgeBeforeTheDeadlineIsDriven : Prop :=
  ∀ (s : State) (i : Nat) (cand : Word), i ≤ 16 → ((s.chan i).mode = .infinite ∨ (s.chan i).mode = .expires) →
    let c := s.chan i
    let ne := c.phaseStart + (if maskBit s.level i then c.duty else 0) - s.counter
    let er := if c.mode = .expires then c.expiry - s.counter else ne + 1
    let stillEnabled := if c.mode = .expires ∧ signed er ≤ 0 then s.enabled &&& ~~~(1#32 <<< i) else s.enabled
    let candidate (ne' : Word) : Word :=
      if c.mode = .expires ∧ signed er ≤ 0 then minS cand ne' else minS (minS cand ne') er
    signed ne ≤ 0 → (c.mode = .expires → signed ne < signed er) →
    (maskBit s.level i = false →
      s.service i cand = some ({ s with
        enabled := stillEnabled
        level := s.level ||| (1#32 <<< i)
        gpo := if c.duty ≠ 0 ∧ i < 16 then s.gpo ||| (1#16 <<< i) else s.gpo
        gp16o := if c.duty ≠ 0 ∧ i = 16 then true else s.gp16o }, candidate (ne + c.duty))) ∧
    (maskBit s.level i = true →
      (∀ phase, driftLoop c.period c.duty s.counter driftFuel c.phaseStart = some phase →
        s.service i cand = some ({ s with
          channels := s.channels.setIfInBounds i { c with phaseStart := phase }
          enabled := stillEnabled
          level := s.level &&& ~~~(1#32 <<< i)
          gpo := if c.duty ≠ c.period ∧ i < 16 then s.gpo &&& ~~~(1#16 <<< i) else s.gpo
          gp16o := if c.duty ≠ c.period ∧ i = 16 then false else s.gp16o }, candidate (phase - s.counter))) ∧
      (driftLoop c.period c.duty s.counter driftFuel c.phaseStart = none → s.service i cand = none))

/-! ### The drift-correction loop -/

/-- R145: within the bounds of R198 the loop ends after exactly `floor(lateness / period) + 1` advances; with a period of 2^31 it can fail
to end. R145 marks both as its own derivation from R132. -/
def Obligations.DriftLoopCountsItsAdvances : Prop :=
  (∀ period duty now phase : Word, 0 < period.toNat → period.toNat < 2 ^ 31 → duty.toNat ≤ period.toNat →
    signed (phase + duty - now) ≤ 0 →
    let advances : Nat := (-(signed (phase + duty - now))).toNat / period.toNat + 1
    ∀ fuel, driftLoop period duty now fuel phase =
      if advances ≤ fuel then some (phase + BitVec.ofNat 32 advances * period) else none) ∧
  ∀ (now : Word) (fuel : Nat), driftLoop 0x80000000#32 0 now fuel now = none

/-- R132: when the loop ends, the phase has advanced by whole periods, at least one, to the first whose high portion has not wholly
passed. -/
def Obligations.DriftLoopStopsAtTheFirstUnfinishedPeriod : Prop :=
  ∀ period duty now phase phase' : Word, driftLoop period duty now driftFuel phase = some phase' →
    ∃ k : Nat, 1 ≤ k ∧ phase' = phase + BitVec.ofNat 32 k * period ∧
      sle (phase' - now) (-duty) = false ∧
      ∀ j : Nat, 1 ≤ j → j < k → sle (phase + BitVec.ofNat 32 j * period - now) (-duty) = true

/-- R145, R198: the loop is judged never to end exactly when no number of advances ends it.
That it is cut after `driftFuel` advances is the model's own (notes/assumptions/16.md): the statement says that no loop that ends
is cut. -/
def Obligations.DriftLoopHangsExactlyWhenItNeverEnds : Prop :=
  ∀ period duty now phase : Word, driftLoop period duty now driftFuel phase = none ↔
    ∀ k : Nat, 1 ≤ k → sle (phase + BitVec.ofNat 32 k * period - now) (-duty) = true

/-! ### A whole pass -/

/-- R198, R145, R134: a pass over channels whose shapes respect R198 completes, whatever the configuration, the samples and the
callback's answer.
That the sweeps end before their cut rests on the bounds of the samples (notes/assumptions/2.md) and on the cut itself
(notes/assumptions/16.md), which are the model's. -/
def Obligations.PassCompletesWithinTheBounds : Prop := ∀ s : State, s.shapesInBounds → ∃ t, s.pass = some t

/-- R198: the machine stops only in a turn of the dispatch engine whose pass never completes, and is never without a step.
That such a pass is the fault `passNeverCompletes` is the model's reading (notes/assumptions/7.md), and that `step` never asks `exec`
for a command it refuses is the model's choice (notes/assumptions/15.md). -/
def Obligations.MachineStopsOnlyOnAHang : Prop :=
  ∀ s : State, (∀ r, step s ≠ .refused r) ∧
    ∀ r, step s = .fault r → r = .passNeverCompletes ∧ s.turn = .dispatch ∧ s.turnTaken.sample.due = true ∧
      s.turnTaken.sample.pass = none

/-- R120, R136, R137, R71, R122, R155, R61: a pass clears both request masks, leaves the timer armed at its last sample, and writes no
shape, no port, no callback registration and not the running flag.
Its steps follow one another: it completes exactly if the sweeps of step 2 end, which begin from the entry, step 1 and the sample
`now`; with a callback registered when they have ended, whether or not a channel is enabled, step 3 then asks it once and takes
the smaller of the sweeps' candidate and the answer in cycles less the time since the sweeps; and step 4 arms the timer with THAT
candidate less the compensation, but no less than `T_MIN_ARM`, halved for a fast clock, and is the last thing the pass does.
What the samples and the answer leave (`counter`, `lapse`, `elapsed`, `auxAnswers`, `draws`) is the model's own
(notes/assumptions/2.md, 3.md). -/
def Obligations.PassAcknowledgesAndRearms : Prop :=
  (∀ s t : State, s.pass = some t →
    t.toEnable = 0 ∧ t.toDisable = 0 ∧ t.timerArmed = true ∧ t.timerRef = t.counter ∧
    t.timerRunning = s.timerRunning ∧ t.ports = s.ports ∧ t.auxValid = s.auxValid ∧ t.auxFn = s.auxFn ∧
    t.auxAnswers = (if s.auxValid then s.auxAnswers.tail else s.auxAnswers) ∧
    (∀ i, (t.chan i).duty = (s.chan i).duty ∧ (t.chan i).period = (s.chan i).period) ∧
    ∃ r, s.enterPass.applyRequests.sampleBeforeSweeps.serviceLoop s.counter = some r) ∧
  ∀ (s swept : State) (cand : Word),
    s.enterPass.applyRequests.sampleBeforeSweeps.serviceLoop s.counter = some (swept, cand) →
    let asked := if swept.auxValid then swept.auxAnswerTaken.sample else swept
    let wake :=
      if swept.auxValid then
        minS cand (swept.auxAnswer * BitVec.ofNat 32 s.cfg.cycPerUs - (asked.counter - swept.counter))
      else cand
    let delay := if signed (wake - s.cfg.tComp) < signed s.cfg.tMinArm then s.cfg.tMinArm else wake - s.cfg.tComp
    s.pass = some { asked with
      timerLoad := if s.cfg.clockFast then delay >>> 1 else delay
      timerRef := asked.sample.counter
      timerArmed := true
      counter := asked.sample.counter
      lapse := 0
      elapsed := asked.sample.elapsed
      draws := asked.sample.draws }

/-- R122, R133: after a pass only channels that took part in it are enabled, and one that took part and does not expire is. -/
def Obligations.PassEnablesWhatWasRequested : Prop :=
  ∀ s t : State, s.pass = some t → ∀ i,
    (maskBit t.enabled i = true → s.folded i = true) ∧
    (s.folded i = true → (t.chan i).mode ≠ .expires → maskBit t.enabled i = true)

/-- R76, R122, R207: a channel that takes no part in a pass keeps its record, its `level` bit and its latch. -/
def Obligations.PassLeavesOtherChannelsAlone : Prop :=
  ∀ s t : State, s.pass = some t → ∀ i, s.folded i = false →
    t.chan i = s.chan i ∧ maskBit t.level i = maskBit s.level i ∧ t.latch i = s.latch i

/-- R139, R145: a pass changes the phase of a channel that is past `Init` by whole periods only, whatever its latency; and for a
shape within R198 by no more periods than the lateness of its falling edge at the end of the pass holds, and one: the lateness at
the entry (negative while the edge lies ahead) and the cycles the pass takes. -/
def Obligations.PassKeepsThePhaseLock : Prop :=
  ∀ s t : State, s.pass = some t → ∀ i, (s.chan i).mode ≠ .init →
    ∃ k : Nat, (t.chan i).phaseStart = (s.chan i).phaseStart + BitVec.ofNat 32 k * (s.chan i).period ∧
      (s.shapeInBounds i → k = 0 ∨
        ((k : Int) - 1) * (s.chan i).period.toNat ≤
          (t.counter - s.counter).toNat - signed ((s.chan i).phaseStart + (s.chan i).duty - s.counter))

/-- R138: what a pass can do to a mode. From a sound state every channel that takes part in the pass leaves `Init` and
`UpdateExpiry`, and its deadline is its duration after its phase (R126, R127), which for `Init` is the `now` of the first sweep. -/
def Obligations.PassMovesModesByTheStateMachine : Prop :=
  ∀ s t : State, s.pass = some t → ∀ i,
    (match (s.chan i).mode with
    | .init => (t.chan i).mode = .init ∨
        (t.chan i).mode = (if (s.chan i).expiry = 0 then .infinite else .expires)
    | .updateExpiry => (t.chan i).mode = .updateExpiry ∨ (t.chan i).mode = .expires
    | .expires => (t.chan i).mode = .expires
    | .infinite => (t.chan i).mode = .infinite) ∧
    (s.Sound → s.folded i = true →
      match (s.chan i).mode with
      | .init =>
        (t.chan i).mode = (if (s.chan i).expiry = 0 then .infinite else .expires) ∧
        (t.chan i).expiry =
          (if (s.chan i).expiry = 0 then 0 else (s.chan i).expiry + s.beforeSweeps.counter)
      | .updateExpiry =>
        (t.chan i).mode = .expires ∧ (t.chan i).expiry = (s.chan i).expiry + (s.chan i).phaseStart
      | .expires => (t.chan i).mode = .expires ∧ (t.chan i).expiry = (s.chan i).expiry
      | .infinite => (t.chan i).mode = .infinite ∧ (t.chan i).expiry = (s.chan i).expiry)

/-- R70, R24: a pass ignores the `expiry_cycles` of a channel in mode `Infinite`, and does not disable it unless asked. -/
def Obligations.PassIgnoresTheExpiryOfInfiniteChannels : Prop :=
  ∀ s t : State, s.pass = some t → ∀ i, (s.chan i).mode = .infinite →
    (t.chan i).expiry = (s.chan i).expiry ∧ maskBit t.enabled i = s.folded i

/-- R142, R133: a sweep at or after the deadline of an enabled channel in its range disables it. -/
def Obligations.SweepDisablesExpiredChannels : Prop :=
  ∀ (s t : State) (cand : Word), s.sweep = some (t, cand) → ∀ i, i ∈ s.scanRange → (s.chan i).mode = .expires →
    signed ((s.chan i).expiry - s.counter) ≤ 0 → maskBit t.enabled i = false

/-- R141: with equal duty and period no step drives the latch of the channel low. -/
def Obligations.ConstantHighLatchStaysHigh : Prop :=
  ∀ s t : State, step s = .next t → ∀ i, (s.chan i).duty = (s.chan i).period → s.latch i = true → t.latch i = true

/-- R143: with duty 0 no step drives the latch of the channel high. -/
def Obligations.ZeroDutyLatchStaysLow : Prop :=
  ∀ s t : State, step s = .next t → ∀ i, (s.chan i).duty = 0 → s.latch i = false → t.latch i = false

/-- R40(a), R40(c), R64: all the samples of a pass lie less than 2^31 cycles after its entry, so the time the counter shows across
a pass is the time that went by; and from the end of one pass to the entry of the next fewer than 2^31 cycles elapse: a pass ends
with `lapse` 0, every step that is no pass adds to it the cycles by which it moves the counter, and neither such a step nor the
entry of the next pass takes it to 2^31.
That R40(a) holds within a pass from its entry, and the count `lapse`, are the model's own (notes/assumptions/2.md). -/
def Obligations.PassTakesLessThanHalfTheCounter : Prop :=
  (∀ s t : State, s.pass = some t → (t.counter - s.counter).toNat < 2 ^ 31 ∧ t.lapse = 0) ∧
  ∀ s t : State, s.lapse < 2 ^ 31 → step s = .next t →
    let entry := s.turnTaken.sample
    (s.turn = .dispatch ∧ entry.pass = some t ∧ entry.lapse < 2 ^ 31 ∧
      entry.lapse = s.lapse + (entry.counter - s.counter).toNat) ∨
    (t.lapse < 2 ^ 31 ∧ t.lapse = s.lapse + (t.counter - s.counter).toNat)

/-! ### The sweeps -/

/-- R124, R134: a sweep starts from the candidate `T_MAXIRQ` and visits the scan range in ascending order, serving each index that is
enabled when it is visited. Step 2 of a pass makes no sweep if no channel is enabled; else it makes one, and after it takes a
sample, and makes another exactly as long as a channel is enabled, the candidate of the latest sweep is below `T_IMMINENT` and the
time since the entry is below `T_BUDGET`; the candidate is that of the last sweep. -/
def Obligations.SweepsRepeatWhileAnEventIsImminent : Prop :=
  (∀ s : State, s.sweep =
    (List.range 32).foldlM (fun (r : State × Word) i =>
      if s.firstActivePin.toNat ≤ i ∧ i ≤ s.lastActivePin.toNat ∧ maskBit r.1.enabled i = true then r.1.service i r.2
      else some r) (s, s.cfg.tMaxirq)) ∧
  ∀ (s u : State) (entry cand : Word), s.serviceLoop entry = some (u, cand) →
    (s.enabled = 0 → u = s ∧ cand = s.cfg.tMaxirq) ∧
    (s.enabled ≠ 0 → ∃ (last : Nat) (state : Nat → State) (candidate : Nat → Word),
      state 0 = s ∧ state (last + 1) = u ∧ candidate (last + 1) = cand ∧
      ∀ k, k ≤ last →
        (∃ t, (state k).sweep = some (t, candidate (k + 1)) ∧ state (k + 1) = t.sampleAfterSweep) ∧
        (k < last ↔
          (state (k + 1)).enabled ≠ 0 ∧ signed (candidate (k + 1)) < signed s.cfg.tImminent ∧
            signed ((state (k + 1)).counter - entry) < signed s.cfg.tBudget))

/-! ### The callback and the re-arm -/

/-- R136: with a callback registered, the candidate becomes the smaller of itself and the callback's delay less the time elapsed since
the sweeps; without one, nothing happens. Nothing but the draws of the answer and of the sample is used up, which are the model's own
(notes/assumptions/2.md, 3.md): the callback has no access to the state of the WGDE. -/
def Obligations.CallbackDelayIsIntersected : Prop :=
  ∀ (s : State) (cand : Word),
    (s.auxValid = false → s.consultCallback cand = (s, cand)) ∧
    (s.auxValid = true →
      let t := (s.consultCallback cand).1
      signed (s.consultCallback cand).2 =
        min (signed cand) (signed (s.auxAnswer * BitVec.ofNat 32 s.cfg.cycPerUs - (t.counter - s.counter))) ∧
      t = { s with
        counter := t.counter, lapse := t.lapse, elapsed := t.elapsed, auxAnswers := t.auxAnswers, draws := t.draws })

/-- R137, R153, R157: the re-arm arms with the candidate less the compensation, but no less than `T_MIN_ARM`, in ticks of the timer, and
writes nothing else; and unless the subtraction of the compensation wraps, that puts the deadline at least `T_MIN_ARM - 1` and at
most `T_MAXIRQ - T_COMP` or `T_MIN_ARM` cycles after the arming.
The premise is the model's reading (notes/assumptions/9.md); what the counter sample leaves (`counter`, `elapsed`, `draws`) and
`lapse` are the model's own (notes/assumptions/2.md). -/
def Obligations.RearmIntervalIsBounded : Prop :=
  ∀ (s : State) (cand : Word), s.cfg.valid = true →
    let t := s.rearm cand
    let delay : Nat := (max (signed s.cfg.tMinArm) (signed (cand - s.cfg.tComp))).toNat
    t.timerLoad.toNat = (if s.cfg.clockFast then delay / 2 else delay) ∧
    t = { s with
      timerLoad := t.timerLoad, timerRef := s.sample.counter, timerArmed := true
      counter := s.sample.counter, lapse := 0, elapsed := s.sample.elapsed, draws := s.sample.draws } ∧
    (signed cand ≤ signed s.cfg.tMaxirq → -(2 ^ 31) ≤ signed cand - signed s.cfg.tComp →
      let interval : Int := (t.deadline - t.timerRef).toNat
      signed s.cfg.tMinArm - 1 ≤ interval ∧
        interval ≤ max (signed s.cfg.tMinArm) (signed s.cfg.tMaxirq - signed s.cfg.tComp))

/-! ### Reset and invariants -/

/-- R186: the fields whose reset value the spec defines. -/
def Obligations.ResetHoldsTheDefinedValues : Prop :=
  let s := State.reset
  s.enabled = 0 ∧ s.level = 0 ∧ s.toEnable = 0 ∧ s.toDisable = 0 ∧ s.firstActivePin = 0 ∧ s.lastActivePin = 0 ∧
  s.timerRunning = false ∧ s.timerArmed = false ∧ s.timerLoad = 0 ∧ s.auxValid = false ∧
  ∀ p ∈ s.ports, p.cmd = none

/-- The invariants hold at reset.
It includes the model's own choices of notes/assumptions/1.md and 6.md. -/
def Obligations.ResetIsSoundAndOrderly : Prop := State.reset.Sound ∧ State.reset.Orderly

/-- R30, R31, R50(a), R50(b), R50(e), R101: every step keeps the invariant, from every state that has it. -/
def Obligations.StepKeepsTheMachineSound : Prop := ∀ s t : State, s.Sound → step s = .next t → t.Sound

/-- R50(d), R201: while no two STARTs for one pin are in progress, every step keeps enabled channels out of mode `Init`. -/
def Obligations.StepKeepsEnabledChannelsInitialised : Prop :=
  ∀ s t : State, s.Sound → s.Orderly → s.oneStartPerPin → step s = .next t → t.oneStartPerPin → t.Orderly

/-! ### The state-field numbers -/

/-- R49, R75: what every field number reads: the five fields of a record, the masks with their unused bits 0 in a sound state, the
packed words in the spec's layout with every other bit 0; and a number that names no field is refused. -/
def Obligations.FieldNumbersReadTheirFields : Prop :=
  ∀ s : State, s.Sound →
    (∀ i, i ≤ 16 →
      s.readField (8 * i) = .ok (s.chan i).phaseStart ∧
      s.readField (8 * i + 1) = .ok (s.chan i).duty ∧
      s.readField (8 * i + 2) = .ok (s.chan i).period ∧
      s.readField (8 * i + 3) = .ok (s.chan i).expiry ∧
      s.readField (8 * i + 4) = .ok (match (s.chan i).mode with
        | .init => 0
        | .updateExpiry => 1
        | .expires => 2
        | .infinite => 3) ∧
      ∀ k, 5 ≤ k → k ≤ 7 → s.readField (8 * i + k) = .error .noSuchField) ∧
    (s.readField 136 = .ok s.enabled ∧ s.readField 137 = .ok s.level ∧ s.readField 138 = .ok s.toEnable ∧
      s.readField 139 = .ok s.toDisable ∧ ∀ n w, 136 ≤ n → n ≤ 139 → s.readField n = .ok w → w >>> 17 = 0) ∧
    (∃ w, s.readField 140 = .ok w ∧ w.extractLsb' 0 5 = s.firstActivePin ∧ w.extractLsb' 8 5 = s.lastActivePin ∧
      w &&& ~~~0x1F1F#32 = 0) ∧
    (∃ w, s.readField 141 = .ok w ∧ w.getLsbD 0 = s.timerRunning ∧ w.getLsbD 1 = s.timerArmed ∧
      w.getLsbD 2 = s.cfg.clockFast ∧ w >>> 3 = 0) ∧
    (s.readField 142 = .ok s.timerLoad ∧ s.readField 143 = .ok s.timerRef) ∧
    (∃ w, s.readField 144 = .ok w ∧ w.getLsbD 0 = s.auxValid ∧ w >>> 1 = 0) ∧
    s.readField 145 = .ok s.auxFn ∧
    (∃ w, s.readField 146 = .ok w ∧ w.extractLsb' 0 16 = s.gpo ∧ w >>> 16 = 0) ∧
    (∃ w, s.readField 147 = .ok w ∧ w.getLsbD 0 = s.gp16o ∧ w >>> 1 = 0) ∧
    (∀ n, 148 ≤ n → s.readField n = .error .noSuchField)
end

