-- ==== Sys2Proof/Laws/State.lean ====
section
/-! SUPPORT. One lemma per field per operation on the state: what the operation leaves as it is. Then the fields an operation
writes. -/

namespace Sys2Proof.Machine

variable (s : State)

/-! ### `setChan` -/

@[simp] theorem State.setChan_enabled (i : Nat) (c : Channel) : (s.setChan i c).enabled = s.enabled := rfl
@[simp] theorem State.setChan_level (i : Nat) (c : Channel) : (s.setChan i c).level = s.level := rfl
@[simp] theorem State.setChan_toEnable (i : Nat) (c : Channel) : (s.setChan i c).toEnable = s.toEnable := rfl
@[simp] theorem State.setChan_toDisable (i : Nat) (c : Channel) : (s.setChan i c).toDisable = s.toDisable := rfl
@[simp] theorem State.setChan_firstActivePin (i : Nat) (c : Channel) : (s.setChan i c).firstActivePin = s.firstActivePin := rfl
@[simp] theorem State.setChan_lastActivePin (i : Nat) (c : Channel) : (s.setChan i c).lastActivePin = s.lastActivePin := rfl
@[simp] theorem State.setChan_timerRunning (i : Nat) (c : Channel) : (s.setChan i c).timerRunning = s.timerRunning := rfl
@[simp] theorem State.setChan_timerArmed (i : Nat) (c : Channel) : (s.setChan i c).timerArmed = s.timerArmed := rfl
@[simp] theorem State.setChan_timerLoad (i : Nat) (c : Channel) : (s.setChan i c).timerLoad = s.timerLoad := rfl
@[simp] theorem State.setChan_timerRef (i : Nat) (c : Channel) : (s.setChan i c).timerRef = s.timerRef := rfl
@[simp] theorem State.setChan_auxValid (i : Nat) (c : Channel) : (s.setChan i c).auxValid = s.auxValid := rfl
@[simp] theorem State.setChan_auxFn (i : Nat) (c : Channel) : (s.setChan i c).auxFn = s.auxFn := rfl
@[simp] theorem State.setChan_ports (i : Nat) (c : Channel) : (s.setChan i c).ports = s.ports := rfl
@[simp] theorem State.setChan_gpo (i : Nat) (c : Channel) : (s.setChan i c).gpo = s.gpo := rfl
@[simp] theorem State.setChan_gp16o (i : Nat) (c : Channel) : (s.setChan i c).gp16o = s.gp16o := rfl
@[simp] theorem State.setChan_cfg (i : Nat) (c : Channel) : (s.setChan i c).cfg = s.cfg := rfl
@[simp] theorem State.setChan_counter (i : Nat) (c : Channel) : (s.setChan i c).counter = s.counter := rfl
@[simp] theorem State.setChan_lapse (i : Nat) (c : Channel) : (s.setChan i c).lapse = s.lapse := rfl
@[simp] theorem State.setChan_active (i : Nat) (c : Channel) : (s.setChan i c).active = s.active := rfl
@[simp] theorem State.setChan_turns (i : Nat) (c : Channel) : (s.setChan i c).turns = s.turns := rfl
@[simp] theorem State.setChan_elapsed (i : Nat) (c : Channel) : (s.setChan i c).elapsed = s.elapsed := rfl
@[simp] theorem State.setChan_auxAnswers (i : Nat) (c : Channel) : (s.setChan i c).auxAnswers = s.auxAnswers := rfl
@[simp] theorem State.setChan_draws (i : Nat) (c : Channel) : (s.setChan i c).draws = s.draws := rfl

/-! ### `onPort` -/

@[simp] theorem State.onPort_channels (f : Port → Port) : (s.onPort f).channels = s.channels := rfl
@[simp] theorem State.onPort_enabled (f : Port → Port) : (s.onPort f).enabled = s.enabled := rfl
@[simp] theorem State.onPort_level (f : Port → Port) : (s.onPort f).level = s.level := rfl
@[simp] theorem State.onPort_toEnable (f : Port → Port) : (s.onPort f).toEnable = s.toEnable := rfl
@[simp] theorem State.onPort_toDisable (f : Port → Port) : (s.onPort f).toDisable = s.toDisable := rfl
@[simp] theorem State.onPort_firstActivePin (f : Port → Port) : (s.onPort f).firstActivePin = s.firstActivePin := rfl
@[simp] theorem State.onPort_lastActivePin (f : Port → Port) : (s.onPort f).lastActivePin = s.lastActivePin := rfl
@[simp] theorem State.onPort_timerRunning (f : Port → Port) : (s.onPort f).timerRunning = s.timerRunning := rfl
@[simp] theorem State.onPort_timerArmed (f : Port → Port) : (s.onPort f).timerArmed = s.timerArmed := rfl
@[simp] theorem State.onPort_timerLoad (f : Port → Port) : (s.onPort f).timerLoad = s.timerLoad := rfl
@[simp] theorem State.onPort_timerRef (f : Port → Port) : (s.onPort f).timerRef = s.timerRef := rfl
@[simp] theorem State.onPort_auxValid (f : Port → Port) : (s.onPort f).auxValid = s.auxValid := rfl
@[simp] theorem State.onPort_auxFn (f : Port → Port) : (s.onPort f).auxFn = s.auxFn := rfl
@[simp] theorem State.onPort_gpo (f : Port → Port) : (s.onPort f).gpo = s.gpo := rfl
@[simp] theorem State.onPort_gp16o (f : Port → Port) : (s.onPort f).gp16o = s.gp16o := rfl
@[simp] theorem State.onPort_cfg (f : Port → Port) : (s.onPort f).cfg = s.cfg := rfl
@[simp] theorem State.onPort_counter (f : Port → Port) : (s.onPort f).counter = s.counter := rfl
@[simp] theorem State.onPort_lapse (f : Port → Port) : (s.onPort f).lapse = s.lapse := rfl
@[simp] theorem State.onPort_active (f : Port → Port) : (s.onPort f).active = s.active := rfl
@[simp] theorem State.onPort_turns (f : Port → Port) : (s.onPort f).turns = s.turns := rfl
@[simp] theorem State.onPort_elapsed (f : Port → Port) : (s.onPort f).elapsed = s.elapsed := rfl
@[simp] theorem State.onPort_auxAnswers (f : Port → Port) : (s.onPort f).auxAnswers = s.auxAnswers := rfl
@[simp] theorem State.onPort_draws (f : Port → Port) : (s.onPort f).draws = s.draws := rfl

/-! ### `requestEnable` -/

@[simp] theorem State.requestEnable_channels (i : Nat) : (s.requestEnable i).channels = s.channels := rfl
@[simp] theorem State.requestEnable_enabled (i : Nat) : (s.requestEnable i).enabled = s.enabled := rfl
@[simp] theorem State.requestEnable_level (i : Nat) : (s.requestEnable i).level = s.level := rfl
@[simp] theorem State.requestEnable_toDisable (i : Nat) : (s.requestEnable i).toDisable = s.toDisable := rfl
@[simp] theorem State.requestEnable_firstActivePin (i : Nat) : (s.requestEnable i).firstActivePin = s.firstActivePin := rfl
@[simp] theorem State.requestEnable_lastActivePin (i : Nat) : (s.requestEnable i).lastActivePin = s.lastActivePin := rfl
@[simp] theorem State.requestEnable_timerRunning (i : Nat) : (s.requestEnable i).timerRunning = s.timerRunning := rfl
@[simp] theorem State.requestEnable_timerArmed (i : Nat) : (s.requestEnable i).timerArmed = s.timerArmed := rfl
@[simp] theorem State.requestEnable_timerLoad (i : Nat) : (s.requestEnable i).timerLoad = s.timerLoad := rfl
@[simp] theorem State.requestEnable_timerRef (i : Nat) : (s.requestEnable i).timerRef = s.timerRef := rfl
@[simp] theorem State.requestEnable_auxValid (i : Nat) : (s.requestEnable i).auxValid = s.auxValid := rfl
@[simp] theorem State.requestEnable_auxFn (i : Nat) : (s.requestEnable i).auxFn = s.auxFn := rfl
@[simp] theorem State.requestEnable_ports (i : Nat) : (s.requestEnable i).ports = s.ports := rfl
@[simp] theorem State.requestEnable_gpo (i : Nat) : (s.requestEnable i).gpo = s.gpo := rfl
@[simp] theorem State.requestEnable_gp16o (i : Nat) : (s.requestEnable i).gp16o = s.gp16o := rfl
@[simp] theorem State.requestEnable_cfg (i : Nat) : (s.requestEnable i).cfg = s.cfg := rfl
@[simp] theorem State.requestEnable_counter (i : Nat) : (s.requestEnable i).counter = s.counter := rfl
@[simp] theorem State.requestEnable_lapse (i : Nat) : (s.requestEnable i).lapse = s.lapse := rfl
@[simp] theorem State.requestEnable_active (i : Nat) : (s.requestEnable i).active = s.active := rfl
@[simp] theorem State.requestEnable_turns (i : Nat) : (s.requestEnable i).turns = s.turns := rfl
@[simp] theorem State.requestEnable_elapsed (i : Nat) : (s.requestEnable i).elapsed = s.elapsed := rfl
@[simp] theorem State.requestEnable_auxAnswers (i : Nat) : (s.requestEnable i).auxAnswers = s.auxAnswers := rfl
@[simp] theorem State.requestEnable_draws (i : Nat) : (s.requestEnable i).draws = s.draws := rfl

/-! ### `requestDisable` -/

@[simp] theorem State.requestDisable_channels (i : Nat) : (s.requestDisable i).channels = s.channels := rfl
@[simp] theorem State.requestDisable_enabled (i : Nat) : (s.requestDisable i).enabled = s.enabled := rfl
@[simp] theorem State.requestDisable_level (i : Nat) : (s.requestDisable i).level = s.level := rfl
@[simp] theorem State.requestDisable_toEnable (i : Nat) : (s.requestDisable i).toEnable = s.toEnable := rfl
@[simp] theorem State.requestDisable_firstActivePin (i : Nat) : (s.requestDisable i).firstActivePin = s.firstActivePin := rfl
@[simp] theorem State.requestDisable_lastActivePin (i : Nat) : (s.requestDisable i).lastActivePin = s.lastActivePin := rfl
@[simp] theorem State.requestDisable_timerRunning (i : Nat) : (s.requestDisable i).timerRunning = s.timerRunning := rfl
@[simp] theorem State.requestDisable_timerArmed (i : Nat) : (s.requestDisable i).timerArmed = s.timerArmed := rfl
@[simp] theorem State.requestDisable_timerLoad (i : Nat) : (s.requestDisable i).timerLoad = s.timerLoad := rfl
@[simp] theorem State.requestDisable_timerRef (i : Nat) : (s.requestDisable i).timerRef = s.timerRef := rfl
@[simp] theorem State.requestDisable_auxValid (i : Nat) : (s.requestDisable i).auxValid = s.auxValid := rfl
@[simp] theorem State.requestDisable_auxFn (i : Nat) : (s.requestDisable i).auxFn = s.auxFn := rfl
@[simp] theorem State.requestDisable_ports (i : Nat) : (s.requestDisable i).ports = s.ports := rfl
@[simp] theorem State.requestDisable_gpo (i : Nat) : (s.requestDisable i).gpo = s.gpo := rfl
@[simp] theorem State.requestDisable_gp16o (i : Nat) : (s.requestDisable i).gp16o = s.gp16o := rfl
@[simp] theorem State.requestDisable_cfg (i : Nat) : (s.requestDisable i).cfg = s.cfg := rfl
@[simp] theorem State.requestDisable_counter (i : Nat) : (s.requestDisable i).counter = s.counter := rfl
@[simp] theorem State.requestDisable_lapse (i : Nat) : (s.requestDisable i).lapse = s.lapse := rfl
@[simp] theorem State.requestDisable_active (i : Nat) : (s.requestDisable i).active = s.active := rfl
@[simp] theorem State.requestDisable_turns (i : Nat) : (s.requestDisable i).turns = s.turns := rfl
@[simp] theorem State.requestDisable_elapsed (i : Nat) : (s.requestDisable i).elapsed = s.elapsed := rfl
@[simp] theorem State.requestDisable_auxAnswers (i : Nat) : (s.requestDisable i).auxAnswers = s.auxAnswers := rfl
@[simp] theorem State.requestDisable_draws (i : Nat) : (s.requestDisable i).draws = s.draws := rfl

/-! ### `disable` -/

@[simp] theorem State.disable_channels (i : Nat) : (s.disable i).channels = s.channels := rfl
@[simp] theorem State.disable_level (i : Nat) : (s.disable i).level = s.level := rfl
@[simp] theorem State.disable_toEnable (i : Nat) : (s.disable i).toEnable = s.toEnable := rfl
@[simp] theorem State.disable_toDisable (i : Nat) : (s.disable i).toDisable = s.toDisable := rfl
@[simp] theorem State.disable_firstActivePin (i : Nat) : (s.disable i).firstActivePin = s.firstActivePin := rfl
@[simp] theorem State.disable_lastActivePin (i : Nat) : (s.disable i).lastActivePin = s.lastActivePin := rfl
@[simp] theorem State.disable_timerRunning (i : Nat) : (s.disable i).timerRunning = s.timerRunning := rfl
@[simp] theorem State.disable_timerArmed (i : Nat) : (s.disable i).timerArmed = s.timerArmed := rfl
@[simp] theorem State.disable_timerLoad (i : Nat) : (s.disable i).timerLoad = s.timerLoad := rfl
@[simp] theorem State.disable_timerRef (i : Nat) : (s.disable i).timerRef = s.timerRef := rfl
@[simp] theorem State.disable_auxValid (i : Nat) : (s.disable i).auxValid = s.auxValid := rfl
@[simp] theorem State.disable_auxFn (i : Nat) : (s.disable i).auxFn = s.auxFn := rfl
@[simp] theorem State.disable_ports (i : Nat) : (s.disable i).ports = s.ports := rfl
@[simp] theorem State.disable_gpo (i : Nat) : (s.disable i).gpo = s.gpo := rfl
@[simp] theorem State.disable_gp16o (i : Nat) : (s.disable i).gp16o = s.gp16o := rfl
@[simp] theorem State.disable_cfg (i : Nat) : (s.disable i).cfg = s.cfg := rfl
@[simp] theorem State.disable_counter (i : Nat) : (s.disable i).counter = s.counter := rfl
@[simp] theorem State.disable_lapse (i : Nat) : (s.disable i).lapse = s.lapse := rfl
@[simp] theorem State.disable_active (i : Nat) : (s.disable i).active = s.active := rfl
@[simp] theorem State.disable_turns (i : Nat) : (s.disable i).turns = s.turns := rfl
@[simp] theorem State.disable_elapsed (i : Nat) : (s.disable i).elapsed = s.elapsed := rfl
@[simp] theorem State.disable_auxAnswers (i : Nat) : (s.disable i).auxAnswers = s.auxAnswers := rfl
@[simp] theorem State.disable_draws (i : Nat) : (s.disable i).draws = s.draws := rfl

/-! ### `setLevel` -/

@[simp] theorem State.setLevel_channels (i : Nat) (b : Bool) : (s.setLevel i b).channels = s.channels := rfl
@[simp] theorem State.setLevel_enabled (i : Nat) (b : Bool) : (s.setLevel i b).enabled = s.enabled := rfl
@[simp] theorem State.setLevel_toEnable (i : Nat) (b : Bool) : (s.setLevel i b).toEnable = s.toEnable := rfl
@[simp] theorem State.setLevel_toDisable (i : Nat) (b : Bool) : (s.setLevel i b).toDisable = s.toDisable := rfl
@[simp] theorem State.setLevel_firstActivePin (i : Nat) (b : Bool) : (s.setLevel i b).firstActivePin = s.firstActivePin := rfl
@[simp] theorem State.setLevel_lastActivePin (i : Nat) (b : Bool) : (s.setLevel i b).lastActivePin = s.lastActivePin := rfl
@[simp] theorem State.setLevel_timerRunning (i : Nat) (b : Bool) : (s.setLevel i b).timerRunning = s.timerRunning := rfl
@[simp] theorem State.setLevel_timerArmed (i : Nat) (b : Bool) : (s.setLevel i b).timerArmed = s.timerArmed := rfl
@[simp] theorem State.setLevel_timerLoad (i : Nat) (b : Bool) : (s.setLevel i b).timerLoad = s.timerLoad := rfl
@[simp] theorem State.setLevel_timerRef (i : Nat) (b : Bool) : (s.setLevel i b).timerRef = s.timerRef := rfl
@[simp] theorem State.setLevel_auxValid (i : Nat) (b : Bool) : (s.setLevel i b).auxValid = s.auxValid := rfl
@[simp] theorem State.setLevel_auxFn (i : Nat) (b : Bool) : (s.setLevel i b).auxFn = s.auxFn := rfl
@[simp] theorem State.setLevel_ports (i : Nat) (b : Bool) : (s.setLevel i b).ports = s.ports := rfl
@[simp] theorem State.setLevel_gpo (i : Nat) (b : Bool) : (s.setLevel i b).gpo = s.gpo := rfl
@[simp] theorem State.setLevel_gp16o (i : Nat) (b : Bool) : (s.setLevel i b).gp16o = s.gp16o := rfl
@[simp] theorem State.setLevel_cfg (i : Nat) (b : Bool) : (s.setLevel i b).cfg = s.cfg := rfl
@[simp] theorem State.setLevel_counter (i : Nat) (b : Bool) : (s.setLevel i b).counter = s.counter := rfl
@[simp] theorem State.setLevel_lapse (i : Nat) (b : Bool) : (s.setLevel i b).lapse = s.lapse := rfl
@[simp] theorem State.setLevel_active (i : Nat) (b : Bool) : (s.setLevel i b).active = s.active := rfl
@[simp] theorem State.setLevel_turns (i : Nat) (b : Bool) : (s.setLevel i b).turns = s.turns := rfl
@[simp] theorem State.setLevel_elapsed (i : Nat) (b : Bool) : (s.setLevel i b).elapsed = s.elapsed := rfl
@[simp] theorem State.setLevel_auxAnswers (i : Nat) (b : Bool) : (s.setLevel i b).auxAnswers = s.auxAnswers := rfl
@[simp] theorem State.setLevel_draws (i : Nat) (b : Bool) : (s.setLevel i b).draws = s.draws := rfl

/-! ### `setAuxFn` -/

@[simp] theorem State.setAuxFn_channels (fn : Word) : (s.setAuxFn fn).channels = s.channels := rfl
@[simp] theorem State.setAuxFn_enabled (fn : Word) : (s.setAuxFn fn).enabled = s.enabled := rfl
@[simp] theorem State.setAuxFn_level (fn : Word) : (s.setAuxFn fn).level = s.level := rfl
@[simp] theorem State.setAuxFn_toEnable (fn : Word) : (s.setAuxFn fn).toEnable = s.toEnable := rfl
@[simp] theorem State.setAuxFn_toDisable (fn : Word) : (s.setAuxFn fn).toDisable = s.toDisable := rfl
@[simp] theorem State.setAuxFn_firstActivePin (fn : Word) : (s.setAuxFn fn).firstActivePin = s.firstActivePin := rfl
@[simp] theorem State.setAuxFn_lastActivePin (fn : Word) : (s.setAuxFn fn).lastActivePin = s.lastActivePin := rfl
@[simp] theorem State.setAuxFn_timerRunning (fn : Word) : (s.setAuxFn fn).timerRunning = s.timerRunning := rfl
@[simp] theorem State.setAuxFn_timerArmed (fn : Word) : (s.setAuxFn fn).timerArmed = s.timerArmed := rfl
@[simp] theorem State.setAuxFn_timerLoad (fn : Word) : (s.setAuxFn fn).timerLoad = s.timerLoad := rfl
@[simp] theorem State.setAuxFn_timerRef (fn : Word) : (s.setAuxFn fn).timerRef = s.timerRef := rfl
@[simp] theorem State.setAuxFn_auxValid (fn : Word) : (s.setAuxFn fn).auxValid = s.auxValid := rfl
@[simp] theorem State.setAuxFn_ports (fn : Word) : (s.setAuxFn fn).ports = s.ports := rfl
@[simp] theorem State.setAuxFn_gpo (fn : Word) : (s.setAuxFn fn).gpo = s.gpo := rfl
@[simp] theorem State.setAuxFn_gp16o (fn : Word) : (s.setAuxFn fn).gp16o = s.gp16o := rfl
@[simp] theorem State.setAuxFn_cfg (fn : Word) : (s.setAuxFn fn).cfg = s.cfg := rfl
@[simp] theorem State.setAuxFn_counter (fn : Word) : (s.setAuxFn fn).counter = s.counter := rfl
@[simp] theorem State.setAuxFn_lapse (fn : Word) : (s.setAuxFn fn).lapse = s.lapse := rfl
@[simp] theorem State.setAuxFn_active (fn : Word) : (s.setAuxFn fn).active = s.active := rfl
@[simp] theorem State.setAuxFn_turns (fn : Word) : (s.setAuxFn fn).turns = s.turns := rfl
@[simp] theorem State.setAuxFn_elapsed (fn : Word) : (s.setAuxFn fn).elapsed = s.elapsed := rfl
@[simp] theorem State.setAuxFn_auxAnswers (fn : Word) : (s.setAuxFn fn).auxAnswers = s.auxAnswers := rfl
@[simp] theorem State.setAuxFn_draws (fn : Word) : (s.setAuxFn fn).draws = s.draws := rfl

/-! ### `setAuxValid` -/

@[simp] theorem State.setAuxValid_channels (b : Bool) : (s.setAuxValid b).channels = s.channels := rfl
@[simp] theorem State.setAuxValid_enabled (b : Bool) : (s.setAuxValid b).enabled = s.enabled := rfl
@[simp] theorem State.setAuxValid_level (b : Bool) : (s.setAuxValid b).level = s.level := rfl
@[simp] theorem State.setAuxValid_toEnable (b : Bool) : (s.setAuxValid b).toEnable = s.toEnable := rfl
@[simp] theorem State.setAuxValid_toDisable (b : Bool) : (s.setAuxValid b).toDisable = s.toDisable := rfl
@[simp] theorem State.setAuxValid_firstActivePin (b : Bool) : (s.setAuxValid b).firstActivePin = s.firstActivePin := rfl
@[simp] theorem State.setAuxValid_lastActivePin (b : Bool) : (s.setAuxValid b).lastActivePin = s.lastActivePin := rfl
@[simp] theorem State.setAuxValid_timerRunning (b : Bool) : (s.setAuxValid b).timerRunning = s.timerRunning := rfl
@[simp] theorem State.setAuxValid_timerArmed (b : Bool) : (s.setAuxValid b).timerArmed = s.timerArmed := rfl
@[simp] theorem State.setAuxValid_timerLoad (b : Bool) : (s.setAuxValid b).timerLoad = s.timerLoad := rfl
@[simp] theorem State.setAuxValid_timerRef (b : Bool) : (s.setAuxValid b).timerRef = s.timerRef := rfl
@[simp] theorem State.setAuxValid_auxFn (b : Bool) : (s.setAuxValid b).auxFn = s.auxFn := rfl
@[simp] theorem State.setAuxValid_ports (b : Bool) : (s.setAuxValid b).ports = s.ports := rfl
@[simp] theorem State.setAuxValid_gpo (b : Bool) : (s.setAuxValid b).gpo = s.gpo := rfl
@[simp] theorem State.setAuxValid_gp16o (b : Bool) : (s.setAuxValid b).gp16o = s.gp16o := rfl
@[simp] theorem State.setAuxValid_cfg (b : Bool) : (s.setAuxValid b).cfg = s.cfg := rfl
@[simp] theorem State.setAuxValid_counter (b : Bool) : (s.setAuxValid b).counter = s.counter := rfl
@[simp] theorem State.setAuxValid_lapse (b : Bool) : (s.setAuxValid b).lapse = s.lapse := rfl
@[simp] theorem State.setAuxValid_active (b : Bool) : (s.setAuxValid b).active = s.active := rfl
@[simp] theorem State.setAuxValid_turns (b : Bool) : (s.setAuxValid b).turns = s.turns := rfl
@[simp] theorem State.setAuxValid_elapsed (b : Bool) : (s.setAuxValid b).elapsed = s.elapsed := rfl
@[simp] theorem State.setAuxValid_auxAnswers (b : Bool) : (s.setAuxValid b).auxAnswers = s.auxAnswers := rfl
@[simp] theorem State.setAuxValid_draws (b : Bool) : (s.setAuxValid b).draws = s.draws := rfl

/-! ### `enterPass` -/

@[simp] theorem State.enterPass_channels : s.enterPass.channels = s.channels := rfl
@[simp] theorem State.enterPass_enabled : s.enterPass.enabled = s.enabled := rfl
@[simp] theorem State.enterPass_level : s.enterPass.level = s.level := rfl
@[simp] theorem State.enterPass_toEnable : s.enterPass.toEnable = s.toEnable := rfl
@[simp] theorem State.enterPass_toDisable : s.enterPass.toDisable = s.toDisable := rfl
@[simp] theorem State.enterPass_firstActivePin : s.enterPass.firstActivePin = s.firstActivePin := rfl
@[simp] theorem State.enterPass_lastActivePin : s.enterPass.lastActivePin = s.lastActivePin := rfl
@[simp] theorem State.enterPass_timerRunning : s.enterPass.timerRunning = s.timerRunning := rfl
@[simp] theorem State.enterPass_timerLoad : s.enterPass.timerLoad = s.timerLoad := rfl
@[simp] theorem State.enterPass_timerRef : s.enterPass.timerRef = s.timerRef := rfl
@[simp] theorem State.enterPass_auxValid : s.enterPass.auxValid = s.auxValid := rfl
@[simp] theorem State.enterPass_auxFn : s.enterPass.auxFn = s.auxFn := rfl
@[simp] theorem State.enterPass_ports : s.enterPass.ports = s.ports := rfl
@[simp] theorem State.enterPass_gpo : s.enterPass.gpo = s.gpo := rfl
@[simp] theorem State.enterPass_gp16o : s.enterPass.gp16o = s.gp16o := rfl
@[simp] theorem State.enterPass_cfg : s.enterPass.cfg = s.cfg := rfl
@[simp] theorem State.enterPass_counter : s.enterPass.counter = s.counter := rfl
@[simp] theorem State.enterPass_active : s.enterPass.active = s.active := rfl
@[simp] theorem State.enterPass_turns : s.enterPass.turns = s.turns := rfl
@[simp] theorem State.enterPass_elapsed : s.enterPass.elapsed = s.elapsed := rfl
@[simp] theorem State.enterPass_auxAnswers : s.enterPass.auxAnswers = s.auxAnswers := rfl
@[simp] theorem State.enterPass_draws : s.enterPass.draws = s.draws := rfl

/-! ### `tstop` -/

@[simp] theorem State.tstop_channels : s.tstop.channels = s.channels := rfl
@[simp] theorem State.tstop_enabled : s.tstop.enabled = s.enabled := rfl
@[simp] theorem State.tstop_level : s.tstop.level = s.level := rfl
@[simp] theorem State.tstop_toEnable : s.tstop.toEnable = s.toEnable := rfl
@[simp] theorem State.tstop_toDisable : s.tstop.toDisable = s.toDisable := rfl
@[simp] theorem State.tstop_firstActivePin : s.tstop.firstActivePin = s.firstActivePin := rfl
@[simp] theorem State.tstop_lastActivePin : s.tstop.lastActivePin = s.lastActivePin := rfl
@[simp] theorem State.tstop_timerLoad : s.tstop.timerLoad = s.timerLoad := rfl
@[simp] theorem State.tstop_timerRef : s.tstop.timerRef = s.timerRef := rfl
@[simp] theorem State.tstop_auxValid : s.tstop.auxValid = s.auxValid := rfl
@[simp] theorem State.tstop_auxFn : s.tstop.auxFn = s.auxFn := rfl
@[simp] theorem State.tstop_ports : s.tstop.ports = s.ports := rfl
@[simp] theorem State.tstop_gpo : s.tstop.gpo = s.gpo := rfl
@[simp] theorem State.tstop_gp16o : s.tstop.gp16o = s.gp16o := rfl
@[simp] theorem State.tstop_cfg : s.tstop.cfg = s.cfg := rfl
@[simp] theorem State.tstop_counter : s.tstop.counter = s.counter := rfl
@[simp] theorem State.tstop_lapse : s.tstop.lapse = s.lapse := rfl
@[simp] theorem State.tstop_active : s.tstop.active = s.active := rfl
@[simp] theorem State.tstop_turns : s.tstop.turns = s.turns := rfl
@[simp] theorem State.tstop_elapsed : s.tstop.elapsed = s.elapsed := rfl
@[simp] theorem State.tstop_auxAnswers : s.tstop.auxAnswers = s.auxAnswers := rfl
@[simp] theorem State.tstop_draws : s.tstop.draws = s.draws := rfl

/-! ### `elapsedTaken` -/

@[simp] theorem State.elapsedTaken_channels : s.elapsedTaken.channels = s.channels := by
  unfold State.elapsedTaken; split <;> rfl
@[simp] theorem State.elapsedTaken_enabled : s.elapsedTaken.enabled = s.enabled := by
  unfold State.elapsedTaken; split <;> rfl
@[simp] theorem State.elapsedTaken_level : s.elapsedTaken.level = s.level := by
  unfold State.elapsedTaken; split <;> rfl
@[simp] theorem State.elapsedTaken_toEnable : s.elapsedTaken.toEnable = s.toEnable := by
  unfold State.elapsedTaken; split <;> rfl
@[simp] theorem State.elapsedTaken_toDisable : s.elapsedTaken.toDisable = s.toDisable := by
  unfold State.elapsedTaken; split <;> rfl
@[simp] theorem State.elapsedTaken_firstActivePin : s.elapsedTaken.firstActivePin = s.firstActivePin := by
  unfold State.elapsedTaken; split <;> rfl
@[simp] theorem State.elapsedTaken_lastActivePin : s.elapsedTaken.lastActivePin = s.lastActivePin := by
  unfold State.elapsedTaken; split <;> rfl
@[simp] theorem State.elapsedTaken_timerRunning : s.elapsedTaken.timerRunning = s.timerRunning := by
  unfold State.elapsedTaken; split <;> rfl
@[simp] theorem State.elapsedTaken_timerArmed : s.elapsedTaken.timerArmed = s.timerArmed := by
  unfold State.elapsedTaken; split <;> rfl
@[simp] theorem State.elapsedTaken_timerLoad : s.elapsedTaken.timerLoad = s.timerLoad := by
  unfold State.elapsedTaken; split <;> rfl
@[simp] theorem State.elapsedTaken_timerRef : s.elapsedTaken.timerRef = s.timerRef := by
  unfold State.elapsedTaken; split <;> rfl
@[simp] theorem State.elapsedTaken_auxValid : s.elapsedTaken.auxValid = s.auxValid := by
  unfold State.elapsedTaken; split <;> rfl
@[simp] theorem State.elapsedTaken_auxFn : s.elapsedTaken.auxFn = s.auxFn := by
  unfold State.elapsedTaken; split <;> rfl
@[simp] theorem State.elapsedTaken_ports : s.elapsedTaken.ports = s.ports := by
  unfold State.elapsedTaken; split <;> rfl
@[simp] theorem State.elapsedTaken_gpo : s.elapsedTaken.gpo = s.gpo := by
  unfold State.elapsedTaken; split <;> rfl
@[simp] theorem State.elapsedTaken_gp16o : s.elapsedTaken.gp16o = s.gp16o := by
  unfold State.elapsedTaken; split <;> rfl
@[simp] theorem State.elapsedTaken_cfg : s.elapsedTaken.cfg = s.cfg := by
  unfold State.elapsedTaken; split <;> rfl
@[simp] theorem State.elapsedTaken_counter : s.elapsedTaken.counter = s.counter := by
  unfold State.elapsedTaken; split <;> rfl
@[simp] theorem State.elapsedTaken_lapse : s.elapsedTaken.lapse = s.lapse := by
  unfold State.elapsedTaken; split <;> rfl
@[simp] theorem State.elapsedTaken_active : s.elapsedTaken.active = s.active := by
  unfold State.elapsedTaken; split <;> rfl
@[simp] theorem State.elapsedTaken_turns : s.elapsedTaken.turns = s.turns := by
  unfold State.elapsedTaken; split <;> rfl
@[simp] theorem State.elapsedTaken_auxAnswers : s.elapsedTaken.auxAnswers = s.auxAnswers := by
  unfold State.elapsedTaken; split <;> rfl

/-! ### `auxAnswerTaken` -/

@[simp] theorem State.auxAnswerTaken_channels : s.auxAnswerTaken.channels = s.channels := by
  unfold State.auxAnswerTaken; split <;> rfl
@[simp] theorem State.auxAnswerTaken_enabled : s.auxAnswerTaken.enabled = s.enabled := by
  unfold State.auxAnswerTaken; split <;> rfl
@[simp] theorem State.auxAnswerTaken_level : s.auxAnswerTaken.level = s.level := by
  unfold State.auxAnswerTaken; split <;> rfl
@[simp] theorem State.auxAnswerTaken_toEnable : s.auxAnswerTaken.toEnable = s.toEnable := by
  unfold State.auxAnswerTaken; split <;> rfl
@[simp] theorem State.auxAnswerTaken_toDisable : s.auxAnswerTaken.toDisable = s.toDisable := by
  unfold State.auxAnswerTaken; split <;> rfl
@[simp] theorem State.auxAnswerTaken_firstActivePin : s.auxAnswerTaken.firstActivePin = s.firstActivePin := by
  unfold State.auxAnswerTaken; split <;> rfl
@[simp] theorem State.auxAnswerTaken_lastActivePin : s.auxAnswerTaken.lastActivePin = s.lastActivePin := by
  unfold State.auxAnswerTaken; split <;> rfl
@[simp] theorem State.auxAnswerTaken_timerRunning : s.auxAnswerTaken.timerRunning = s.timerRunning := by
  unfold State.auxAnswerTaken; split <;> rfl
@[simp] theorem State.auxAnswerTaken_timerArmed : s.auxAnswerTaken.timerArmed = s.timerArmed := by
  unfold State.auxAnswerTaken; split <;> rfl
@[simp] theorem State.auxAnswerTaken_timerLoad : s.auxAnswerTaken.timerLoad = s.timerLoad := by
  unfold State.auxAnswerTaken; split <;> rfl
@[simp] theorem State.auxAnswerTaken_timerRef : s.auxAnswerTaken.timerRef = s.timerRef := by
  unfold State.auxAnswerTaken; split <;> rfl
@[simp] theorem State.auxAnswerTaken_auxValid : s.auxAnswerTaken.auxValid = s.auxValid := by
  unfold State.auxAnswerTaken; split <;> rfl
@[simp] theorem State.auxAnswerTaken_auxFn : s.auxAnswerTaken.auxFn = s.auxFn := by
  unfold State.auxAnswerTaken; split <;> rfl
@[simp] theorem State.auxAnswerTaken_ports : s.auxAnswerTaken.ports = s.ports := by
  unfold State.auxAnswerTaken; split <;> rfl
@[simp] theorem State.auxAnswerTaken_gpo : s.auxAnswerTaken.gpo = s.gpo := by
  unfold State.auxAnswerTaken; split <;> rfl
@[simp] theorem State.auxAnswerTaken_gp16o : s.auxAnswerTaken.gp16o = s.gp16o := by
  unfold State.auxAnswerTaken; split <;> rfl
@[simp] theorem State.auxAnswerTaken_cfg : s.auxAnswerTaken.cfg = s.cfg := by
  unfold State.auxAnswerTaken; split <;> rfl
@[simp] theorem State.auxAnswerTaken_counter : s.auxAnswerTaken.counter = s.counter := by
  unfold State.auxAnswerTaken; split <;> rfl
@[simp] theorem State.auxAnswerTaken_lapse : s.auxAnswerTaken.lapse = s.lapse := by
  unfold State.auxAnswerTaken; split <;> rfl
@[simp] theorem State.auxAnswerTaken_active : s.auxAnswerTaken.active = s.active := by
  unfold State.auxAnswerTaken; split <;> rfl
@[simp] theorem State.auxAnswerTaken_turns : s.auxAnswerTaken.turns = s.turns := by
  unfold State.auxAnswerTaken; split <;> rfl
@[simp] theorem State.auxAnswerTaken_elapsed : s.auxAnswerTaken.elapsed = s.elapsed := by
  unfold State.auxAnswerTaken; split <;> rfl

/-! ### `turnTaken` -/

@[simp] theorem State.turnTaken_channels : s.turnTaken.channels = s.channels := by
  unfold State.turnTaken; split <;> rfl
@[simp] theorem State.turnTaken_enabled : s.turnTaken.enabled = s.enabled := by
  unfold State.turnTaken; split <;> rfl
@[simp] theorem State.turnTaken_level : s.turnTaken.level = s.level := by
  unfold State.turnTaken; split <;> rfl
@[simp] theorem State.turnTaken_toEnable : s.turnTaken.toEnable = s.toEnable := by
  unfold State.turnTaken; split <;> rfl
@[simp] theorem State.turnTaken_toDisable : s.turnTaken.toDisable = s.toDisable := by
  unfold State.turnTaken; split <;> rfl
@[simp] theorem State.turnTaken_firstActivePin : s.turnTaken.firstActivePin = s.firstActivePin := by
  unfold State.turnTaken; split <;> rfl
@[simp] theorem State.turnTaken_lastActivePin : s.turnTaken.lastActivePin = s.lastActivePin := by
  unfold State.turnTaken; split <;> rfl
@[simp] theorem State.turnTaken_timerRunning : s.turnTaken.timerRunning = s.timerRunning := by
  unfold State.turnTaken; split <;> rfl
@[simp] theorem State.turnTaken_timerArmed : s.turnTaken.timerArmed = s.timerArmed := by
  unfold State.turnTaken; split <;> rfl
@[simp] theorem State.turnTaken_timerLoad : s.turnTaken.timerLoad = s.timerLoad := by
  unfold State.turnTaken; split <;> rfl
@[simp] theorem State.turnTaken_timerRef : s.turnTaken.timerRef = s.timerRef := by
  unfold State.turnTaken; split <;> rfl
@[simp] theorem State.turnTaken_auxValid : s.turnTaken.auxValid = s.auxValid := by
  unfold State.turnTaken; split <;> rfl
@[simp] theorem State.turnTaken_auxFn : s.turnTaken.auxFn = s.auxFn := by
  unfold State.turnTaken; split <;> rfl
@[simp] theorem State.turnTaken_ports : s.turnTaken.ports = s.ports := by
  unfold State.turnTaken; split <;> rfl
@[simp] theorem State.turnTaken_gpo : s.turnTaken.gpo = s.gpo := by
  unfold State.turnTaken; split <;> rfl
@[simp] theorem State.turnTaken_gp16o : s.turnTaken.gp16o = s.gp16o := by
  unfold State.turnTaken; split <;> rfl
@[simp] theorem State.turnTaken_cfg : s.turnTaken.cfg = s.cfg := by
  unfold State.turnTaken; split <;> rfl
@[simp] theorem State.turnTaken_counter : s.turnTaken.counter = s.counter := by
  unfold State.turnTaken; split <;> rfl
@[simp] theorem State.turnTaken_lapse : s.turnTaken.lapse = s.lapse := by
  unfold State.turnTaken; split <;> rfl
@[simp] theorem State.turnTaken_active : s.turnTaken.active = s.active := by
  unfold State.turnTaken; split <;> rfl
@[simp] theorem State.turnTaken_elapsed : s.turnTaken.elapsed = s.elapsed := by
  unfold State.turnTaken; split <;> rfl
@[simp] theorem State.turnTaken_auxAnswers : s.turnTaken.auxAnswers = s.auxAnswers := by
  unfold State.turnTaken; split <;> rfl

/-! ### `sampleWithin` -/

@[simp] theorem State.sampleWithin_channels (a b : Nat) : (s.sampleWithin a b).channels = s.channels := s.elapsedTaken_channels
@[simp] theorem State.sampleWithin_enabled (a b : Nat) : (s.sampleWithin a b).enabled = s.enabled := s.elapsedTaken_enabled
@[simp] theorem State.sampleWithin_level (a b : Nat) : (s.sampleWithin a b).level = s.level := s.elapsedTaken_level
@[simp] theorem State.sampleWithin_toEnable (a b : Nat) : (s.sampleWithin a b).toEnable = s.toEnable := s.elapsedTaken_toEnable
@[simp] theorem State.sampleWithin_toDisable (a b : Nat) : (s.sampleWithin a b).toDisable = s.toDisable := s.elapsedTaken_toDisable
@[simp] theorem State.sampleWithin_firstActivePin (a b : Nat) : (s.sampleWithin a b).firstActivePin = s.firstActivePin := s.elapsedTaken_firstActivePin
@[simp] theorem State.sampleWithin_lastActivePin (a b : Nat) : (s.sampleWithin a b).lastActivePin = s.lastActivePin := s.elapsedTaken_lastActivePin
@[simp] theorem State.sampleWithin_timerRunning (a b : Nat) : (s.sampleWithin a b).timerRunning = s.timerRunning := s.elapsedTaken_timerRunning
@[simp] theorem State.sampleWithin_timerArmed (a b : Nat) : (s.sampleWithin a b).timerArmed = s.timerArmed := s.elapsedTaken_timerArmed
@[simp] theorem State.sampleWithin_timerLoad (a b : Nat) : (s.sampleWithin a b).timerLoad = s.timerLoad := s.elapsedTaken_timerLoad
@[simp] theorem State.sampleWithin_timerRef (a b : Nat) : (s.sampleWithin a b).timerRef = s.timerRef := s.elapsedTaken_timerRef
@[simp] theorem State.sampleWithin_auxValid (a b : Nat) : (s.sampleWithin a b).auxValid = s.auxValid := s.elapsedTaken_auxValid
@[simp] theorem State.sampleWithin_auxFn (a b : Nat) : (s.sampleWithin a b).auxFn = s.auxFn := s.elapsedTaken_auxFn
@[simp] theorem State.sampleWithin_ports (a b : Nat) : (s.sampleWithin a b).ports = s.ports := s.elapsedTaken_ports
@[simp] theorem State.sampleWithin_gpo (a b : Nat) : (s.sampleWithin a b).gpo = s.gpo := s.elapsedTaken_gpo
@[simp] theorem State.sampleWithin_gp16o (a b : Nat) : (s.sampleWithin a b).gp16o = s.gp16o := s.elapsedTaken_gp16o
@[simp] theorem State.sampleWithin_cfg (a b : Nat) : (s.sampleWithin a b).cfg = s.cfg := s.elapsedTaken_cfg
@[simp] theorem State.sampleWithin_active (a b : Nat) : (s.sampleWithin a b).active = s.active := s.elapsedTaken_active
@[simp] theorem State.sampleWithin_turns (a b : Nat) : (s.sampleWithin a b).turns = s.turns := s.elapsedTaken_turns
@[simp] theorem State.sampleWithin_auxAnswers (a b : Nat) : (s.sampleWithin a b).auxAnswers = s.auxAnswers := s.elapsedTaken_auxAnswers

/-! ### `tarm` -/

@[simp] theorem State.tarm_channels (c : Word) : (s.tarm c).channels = s.channels := s.elapsedTaken_channels
@[simp] theorem State.tarm_enabled (c : Word) : (s.tarm c).enabled = s.enabled := s.elapsedTaken_enabled
@[simp] theorem State.tarm_level (c : Word) : (s.tarm c).level = s.level := s.elapsedTaken_level
@[simp] theorem State.tarm_toEnable (c : Word) : (s.tarm c).toEnable = s.toEnable := s.elapsedTaken_toEnable
@[simp] theorem State.tarm_toDisable (c : Word) : (s.tarm c).toDisable = s.toDisable := s.elapsedTaken_toDisable
@[simp] theorem State.tarm_firstActivePin (c : Word) : (s.tarm c).firstActivePin = s.firstActivePin := s.elapsedTaken_firstActivePin
@[simp] theorem State.tarm_lastActivePin (c : Word) : (s.tarm c).lastActivePin = s.lastActivePin := s.elapsedTaken_lastActivePin
@[simp] theorem State.tarm_timerRunning (c : Word) : (s.tarm c).timerRunning = s.timerRunning := s.elapsedTaken_timerRunning
@[simp] theorem State.tarm_auxValid (c : Word) : (s.tarm c).auxValid = s.auxValid := s.elapsedTaken_auxValid
@[simp] theorem State.tarm_auxFn (c : Word) : (s.tarm c).auxFn = s.auxFn := s.elapsedTaken_auxFn
@[simp] theorem State.tarm_ports (c : Word) : (s.tarm c).ports = s.ports := s.elapsedTaken_ports
@[simp] theorem State.tarm_gpo (c : Word) : (s.tarm c).gpo = s.gpo := s.elapsedTaken_gpo
@[simp] theorem State.tarm_gp16o (c : Word) : (s.tarm c).gp16o = s.gp16o := s.elapsedTaken_gp16o
@[simp] theorem State.tarm_cfg (c : Word) : (s.tarm c).cfg = s.cfg := s.elapsedTaken_cfg
@[simp] theorem State.tarm_active (c : Word) : (s.tarm c).active = s.active := s.elapsedTaken_active
@[simp] theorem State.tarm_turns (c : Word) : (s.tarm c).turns = s.turns := s.elapsedTaken_turns
@[simp] theorem State.tarm_auxAnswers (c : Word) : (s.tarm c).auxAnswers = s.auxAnswers := s.elapsedTaken_auxAnswers

/-! ### `tstart` -/

@[simp] theorem State.tstart_channels : s.tstart.channels = s.channels := State.elapsedTaken_channels _
@[simp] theorem State.tstart_enabled : s.tstart.enabled = s.enabled := State.elapsedTaken_enabled _
@[simp] theorem State.tstart_level : s.tstart.level = s.level := State.elapsedTaken_level _
@[simp] theorem State.tstart_toEnable : s.tstart.toEnable = s.toEnable := State.elapsedTaken_toEnable _
@[simp] theorem State.tstart_toDisable : s.tstart.toDisable = s.toDisable := State.elapsedTaken_toDisable _
@[simp] theorem State.tstart_firstActivePin : s.tstart.firstActivePin = s.firstActivePin := State.elapsedTaken_firstActivePin _
@[simp] theorem State.tstart_lastActivePin : s.tstart.lastActivePin = s.lastActivePin := State.elapsedTaken_lastActivePin _
@[simp] theorem State.tstart_auxValid : s.tstart.auxValid = s.auxValid := State.elapsedTaken_auxValid _
@[simp] theorem State.tstart_auxFn : s.tstart.auxFn = s.auxFn := State.elapsedTaken_auxFn _
@[simp] theorem State.tstart_ports : s.tstart.ports = s.ports := State.elapsedTaken_ports _
@[simp] theorem State.tstart_gpo : s.tstart.gpo = s.gpo := State.elapsedTaken_gpo _
@[simp] theorem State.tstart_gp16o : s.tstart.gp16o = s.gp16o := State.elapsedTaken_gp16o _
@[simp] theorem State.tstart_cfg : s.tstart.cfg = s.cfg := State.elapsedTaken_cfg _
@[simp] theorem State.tstart_active : s.tstart.active = s.active := State.elapsedTaken_active _
@[simp] theorem State.tstart_turns : s.tstart.turns = s.turns := State.elapsedTaken_turns _
@[simp] theorem State.tstart_auxAnswers : s.tstart.auxAnswers = s.auxAnswers := State.elapsedTaken_auxAnswers _

/-! ### `rearm` -/

@[simp] theorem State.rearm_channels (w : Word) : (s.rearm w).channels = s.channels := s.elapsedTaken_channels
@[simp] theorem State.rearm_enabled (w : Word) : (s.rearm w).enabled = s.enabled := s.elapsedTaken_enabled
@[simp] theorem State.rearm_level (w : Word) : (s.rearm w).level = s.level := s.elapsedTaken_level
@[simp] theorem State.rearm_toEnable (w : Word) : (s.rearm w).toEnable = s.toEnable := s.elapsedTaken_toEnable
@[simp] theorem State.rearm_toDisable (w : Word) : (s.rearm w).toDisable = s.toDisable := s.elapsedTaken_toDisable
@[simp] theorem State.rearm_firstActivePin (w : Word) : (s.rearm w).firstActivePin = s.firstActivePin := s.elapsedTaken_firstActivePin
@[simp] theorem State.rearm_lastActivePin (w : Word) : (s.rearm w).lastActivePin = s.lastActivePin := s.elapsedTaken_lastActivePin
@[simp] theorem State.rearm_timerRunning (w : Word) : (s.rearm w).timerRunning = s.timerRunning := s.elapsedTaken_timerRunning
@[simp] theorem State.rearm_auxValid (w : Word) : (s.rearm w).auxValid = s.auxValid := s.elapsedTaken_auxValid
@[simp] theorem State.rearm_auxFn (w : Word) : (s.rearm w).auxFn = s.auxFn := s.elapsedTaken_auxFn
@[simp] theorem State.rearm_ports (w : Word) : (s.rearm w).ports = s.ports := s.elapsedTaken_ports
@[simp] theorem State.rearm_gpo (w : Word) : (s.rearm w).gpo = s.gpo := s.elapsedTaken_gpo
@[simp] theorem State.rearm_gp16o (w : Word) : (s.rearm w).gp16o = s.gp16o := s.elapsedTaken_gp16o
@[simp] theorem State.rearm_cfg (w : Word) : (s.rearm w).cfg = s.cfg := s.elapsedTaken_cfg
@[simp] theorem State.rearm_active (w : Word) : (s.rearm w).active = s.active := s.elapsedTaken_active
@[simp] theorem State.rearm_turns (w : Word) : (s.rearm w).turns = s.turns := s.elapsedTaken_turns
@[simp] theorem State.rearm_auxAnswers (w : Word) : (s.rearm w).auxAnswers = s.auxAnswers := s.elapsedTaken_auxAnswers

/-! ### `gpioSet` -/

@[simp] theorem State.gpioSet_channels (i : Nat) : (s.gpioSet i).channels = s.channels := by
  unfold State.gpioSet; split <;> rfl
@[simp] theorem State.gpioSet_enabled (i : Nat) : (s.gpioSet i).enabled = s.enabled := by
  unfold State.gpioSet; split <;> rfl
@[simp] theorem State.gpioSet_level (i : Nat) : (s.gpioSet i).level = s.level := by
  unfold State.gpioSet; split <;> rfl
@[simp] theorem State.gpioSet_toEnable (i : Nat) : (s.gpioSet i).toEnable = s.toEnable := by
  unfold State.gpioSet; split <;> rfl
@[simp] theorem State.gpioSet_toDisable (i : Nat) : (s.gpioSet i).toDisable = s.toDisable := by
  unfold State.gpioSet; split <;> rfl
@[simp] theorem State.gpioSet_firstActivePin (i : Nat) : (s.gpioSet i).firstActivePin = s.firstActivePin := by
  unfold State.gpioSet; split <;> rfl
@[simp] theorem State.gpioSet_lastActivePin (i : Nat) : (s.gpioSet i).lastActivePin = s.lastActivePin := by
  unfold State.gpioSet; split <;> rfl
@[simp] theorem State.gpioSet_timerRunning (i : Nat) : (s.gpioSet i).timerRunning = s.timerRunning := by
  unfold State.gpioSet; split <;> rfl
@[simp] theorem State.gpioSet_timerArmed (i : Nat) : (s.gpioSet i).timerArmed = s.timerArmed := by
  unfold State.gpioSet; split <;> rfl
@[simp] theorem State.gpioSet_timerLoad (i : Nat) : (s.gpioSet i).timerLoad = s.timerLoad := by
  unfold State.gpioSet; split <;> rfl
@[simp] theorem State.gpioSet_timerRef (i : Nat) : (s.gpioSet i).timerRef = s.timerRef := by
  unfold State.gpioSet; split <;> rfl
@[simp] theorem State.gpioSet_auxValid (i : Nat) : (s.gpioSet i).auxValid = s.auxValid := by
  unfold State.gpioSet; split <;> rfl
@[simp] theorem State.gpioSet_auxFn (i : Nat) : (s.gpioSet i).auxFn = s.auxFn := by
  unfold State.gpioSet; split <;> rfl
@[simp] theorem State.gpioSet_ports (i : Nat) : (s.gpioSet i).ports = s.ports := by
  unfold State.gpioSet; split <;> rfl
@[simp] theorem State.gpioSet_cfg (i : Nat) : (s.gpioSet i).cfg = s.cfg := by
  unfold State.gpioSet; split <;> rfl
@[simp] theorem State.gpioSet_counter (i : Nat) : (s.gpioSet i).counter = s.counter := by
  unfold State.gpioSet; split <;> rfl
@[simp] theorem State.gpioSet_lapse (i : Nat) : (s.gpioSet i).lapse = s.lapse := by
  unfold State.gpioSet; split <;> rfl
@[simp] theorem State.gpioSet_active (i : Nat) : (s.gpioSet i).active = s.active := by
  unfold State.gpioSet; split <;> rfl
@[simp] theorem State.gpioSet_turns (i : Nat) : (s.gpioSet i).turns = s.turns := by
  unfold State.gpioSet; split <;> rfl
@[simp] theorem State.gpioSet_elapsed (i : Nat) : (s.gpioSet i).elapsed = s.elapsed := by
  unfold State.gpioSet; split <;> rfl
@[simp] theorem State.gpioSet_auxAnswers (i : Nat) : (s.gpioSet i).auxAnswers = s.auxAnswers := by
  unfold State.gpioSet; split <;> rfl
@[simp] theorem State.gpioSet_draws (i : Nat) : (s.gpioSet i).draws = s.draws := by
  unfold State.gpioSet; split <;> rfl

/-! ### `gpioClear` -/

@[simp] theorem State.gpioClear_channels (i : Nat) : (s.gpioClear i).channels = s.channels := by
  unfold State.gpioClear; split <;> rfl
@[simp] theorem State.gpioClear_enabled (i : Nat) : (s.gpioClear i).enabled = s.enabled := by
  unfold State.gpioClear; split <;> rfl
@[simp] theorem State.gpioClear_level (i : Nat) : (s.gpioClear i).level = s.level := by
  unfold State.gpioClear; split <;> rfl
@[simp] theorem State.gpioClear_toEnable (i : Nat) : (s.gpioClear i).toEnable = s.toEnable := by
  unfold State.gpioClear; split <;> rfl
@[simp] theorem State.gpioClear_toDisable (i : Nat) : (s.gpioClear i).toDisable = s.toDisable := by
  unfold State.gpioClear; split <;> rfl
@[simp] theorem State.gpioClear_firstActivePin (i : Nat) : (s.gpioClear i).firstActivePin = s.firstActivePin := by
  unfold State.gpioClear; split <;> rfl
@[simp] theorem State.gpioClear_lastActivePin (i : Nat) : (s.gpioClear i).lastActivePin = s.lastActivePin := by
  unfold State.gpioClear; split <;> rfl
@[simp] theorem State.gpioClear_timerRunning (i : Nat) : (s.gpioClear i).timerRunning = s.timerRunning := by
  unfold State.gpioClear; split <;> rfl
@[simp] theorem State.gpioClear_timerArmed (i : Nat) : (s.gpioClear i).timerArmed = s.timerArmed := by
  unfold State.gpioClear; split <;> rfl
@[simp] theorem State.gpioClear_timerLoad (i : Nat) : (s.gpioClear i).timerLoad = s.timerLoad := by
  unfold State.gpioClear; split <;> rfl
@[simp] theorem State.gpioClear_timerRef (i : Nat) : (s.gpioClear i).timerRef = s.timerRef := by
  unfold State.gpioClear; split <;> rfl
@[simp] theorem State.gpioClear_auxValid (i : Nat) : (s.gpioClear i).auxValid = s.auxValid := by
  unfold State.gpioClear; split <;> rfl
@[simp] theorem State.gpioClear_auxFn (i : Nat) : (s.gpioClear i).auxFn = s.auxFn := by
  unfold State.gpioClear; split <;> rfl
@[simp] theorem State.gpioClear_ports (i : Nat) : (s.gpioClear i).ports = s.ports := by
  unfold State.gpioClear; split <;> rfl
@[simp] theorem State.gpioClear_cfg (i : Nat) : (s.gpioClear i).cfg = s.cfg := by
  unfold State.gpioClear; split <;> rfl
@[simp] theorem State.gpioClear_counter (i : Nat) : (s.gpioClear i).counter = s.counter := by
  unfold State.gpioClear; split <;> rfl
@[simp] theorem State.gpioClear_lapse (i : Nat) : (s.gpioClear i).lapse = s.lapse := by
  unfold State.gpioClear; split <;> rfl
@[simp] theorem State.gpioClear_active (i : Nat) : (s.gpioClear i).active = s.active := by
  unfold State.gpioClear; split <;> rfl
@[simp] theorem State.gpioClear_turns (i : Nat) : (s.gpioClear i).turns = s.turns := by
  unfold State.gpioClear; split <;> rfl
@[simp] theorem State.gpioClear_elapsed (i : Nat) : (s.gpioClear i).elapsed = s.elapsed := by
  unfold State.gpioClear; split <;> rfl
@[simp] theorem State.gpioClear_auxAnswers (i : Nat) : (s.gpioClear i).auxAnswers = s.auxAnswers := by
  unfold State.gpioClear; split <;> rfl
@[simp] theorem State.gpioClear_draws (i : Nat) : (s.gpioClear i).draws = s.draws := by
  unfold State.gpioClear; split <;> rfl

/-! ### `lowered` -/

@[simp] theorem State.lowered_channels (i : Nat) : (s.lowered i).channels = s.channels := by
  unfold State.lowered; split <;> simp
@[simp] theorem State.lowered_enabled (i : Nat) : (s.lowered i).enabled = s.enabled := by
  unfold State.lowered; split <;> simp
@[simp] theorem State.lowered_toEnable (i : Nat) : (s.lowered i).toEnable = s.toEnable := by
  unfold State.lowered; split <;> simp
@[simp] theorem State.lowered_toDisable (i : Nat) : (s.lowered i).toDisable = s.toDisable := by
  unfold State.lowered; split <;> simp
@[simp] theorem State.lowered_firstActivePin (i : Nat) : (s.lowered i).firstActivePin = s.firstActivePin := by
  unfold State.lowered; split <;> simp
@[simp] theorem State.lowered_lastActivePin (i : Nat) : (s.lowered i).lastActivePin = s.lastActivePin := by
  unfold State.lowered; split <;> simp
@[simp] theorem State.lowered_timerRunning (i : Nat) : (s.lowered i).timerRunning = s.timerRunning := by
  unfold State.lowered; split <;> simp
@[simp] theorem State.lowered_timerArmed (i : Nat) : (s.lowered i).timerArmed = s.timerArmed := by
  unfold State.lowered; split <;> simp
@[simp] theorem State.lowered_timerLoad (i : Nat) : (s.lowered i).timerLoad = s.timerLoad := by
  unfold State.lowered; split <;> simp
@[simp] theorem State.lowered_timerRef (i : Nat) : (s.lowered i).timerRef = s.timerRef := by
  unfold State.lowered; split <;> simp
@[simp] theorem State.lowered_auxValid (i : Nat) : (s.lowered i).auxValid = s.auxValid := by
  unfold State.lowered; split <;> simp
@[simp] theorem State.lowered_auxFn (i : Nat) : (s.lowered i).auxFn = s.auxFn := by
  unfold State.lowered; split <;> simp
@[simp] theorem State.lowered_ports (i : Nat) : (s.lowered i).ports = s.ports := by
  unfold State.lowered; split <;> simp
@[simp] theorem State.lowered_cfg (i : Nat) : (s.lowered i).cfg = s.cfg := by
  unfold State.lowered; split <;> simp
@[simp] theorem State.lowered_counter (i : Nat) : (s.lowered i).counter = s.counter := by
  unfold State.lowered; split <;> simp
@[simp] theorem State.lowered_lapse (i : Nat) : (s.lowered i).lapse = s.lapse := by
  unfold State.lowered; split <;> simp
@[simp] theorem State.lowered_active (i : Nat) : (s.lowered i).active = s.active := by
  unfold State.lowered; split <;> simp
@[simp] theorem State.lowered_turns (i : Nat) : (s.lowered i).turns = s.turns := by
  unfold State.lowered; split <;> simp
@[simp] theorem State.lowered_elapsed (i : Nat) : (s.lowered i).elapsed = s.elapsed := by
  unfold State.lowered; split <;> simp
@[simp] theorem State.lowered_auxAnswers (i : Nat) : (s.lowered i).auxAnswers = s.auxAnswers := by
  unfold State.lowered; split <;> simp
@[simp] theorem State.lowered_draws (i : Nat) : (s.lowered i).draws = s.draws := by
  unfold State.lowered; split <;> simp

/-! ### `recomputeRange` -/

@[simp] theorem State.recomputeRange_channels : s.recomputeRange.channels = s.channels := by
  unfold State.recomputeRange; split <;> rfl
@[simp] theorem State.recomputeRange_enabled : s.recomputeRange.enabled = s.enabled := by
  unfold State.recomputeRange; split <;> rfl
@[simp] theorem State.recomputeRange_level : s.recomputeRange.level = s.level := by
  unfold State.recomputeRange; split <;> rfl
@[simp] theorem State.recomputeRange_toEnable : s.recomputeRange.toEnable = s.toEnable := by
  unfold State.recomputeRange; split <;> rfl
@[simp] theorem State.recomputeRange_toDisable : s.recomputeRange.toDisable = s.toDisable := by
  unfold State.recomputeRange; split <;> rfl
@[simp] theorem State.recomputeRange_timerRunning : s.recomputeRange.timerRunning = s.timerRunning := by
  unfold State.recomputeRange; split <;> rfl
@[simp] theorem State.recomputeRange_timerArmed : s.recomputeRange.timerArmed = s.timerArmed := by
  unfold State.recomputeRange; split <;> rfl
@[simp] theorem State.recomputeRange_timerLoad : s.recomputeRange.timerLoad = s.timerLoad := by
  unfold State.recomputeRange; split <;> rfl
@[simp] theorem State.recomputeRange_timerRef : s.recomputeRange.timerRef = s.timerRef := by
  unfold State.recomputeRange; split <;> rfl
@[simp] theorem State.recomputeRange_auxValid : s.recomputeRange.auxValid = s.auxValid := by
  unfold State.recomputeRange; split <;> rfl
@[simp] theorem State.recomputeRange_auxFn : s.recomputeRange.auxFn = s.auxFn := by
  unfold State.recomputeRange; split <;> rfl
@[simp] theorem State.recomputeRange_ports : s.recomputeRange.ports = s.ports := by
  unfold State.recomputeRange; split <;> rfl
@[simp] theorem State.recomputeRange_gpo : s.recomputeRange.gpo = s.gpo := by
  unfold State.recomputeRange; split <;> rfl
@[simp] theorem State.recomputeRange_gp16o : s.recomputeRange.gp16o = s.gp16o := by
  unfold State.recomputeRange; split <;> rfl
@[simp] theorem State.recomputeRange_cfg : s.recomputeRange.cfg = s.cfg := by
  unfold State.recomputeRange; split <;> rfl
@[simp] theorem State.recomputeRange_counter : s.recomputeRange.counter = s.counter := by
  unfold State.recomputeRange; split <;> rfl
@[simp] theorem State.recomputeRange_lapse : s.recomputeRange.lapse = s.lapse := by
  unfold State.recomputeRange; split <;> rfl
@[simp] theorem State.recomputeRange_active : s.recomputeRange.active = s.active := by
  unfold State.recomputeRange; split <;> rfl
@[simp] theorem State.recomputeRange_turns : s.recomputeRange.turns = s.turns := by
  unfold State.recomputeRange; split <;> rfl
@[simp] theorem State.recomputeRange_elapsed : s.recomputeRange.elapsed = s.elapsed := by
  unfold State.recomputeRange; split <;> rfl
@[simp] theorem State.recomputeRange_auxAnswers : s.recomputeRange.auxAnswers = s.auxAnswers := by
  unfold State.recomputeRange; split <;> rfl
@[simp] theorem State.recomputeRange_draws : s.recomputeRange.draws = s.draws := by
  unfold State.recomputeRange; split <;> rfl

/-! ### `apply` -/

@[simp] theorem State.apply_channels : s.apply.channels = s.channels := State.recomputeRange_channels _
@[simp] theorem State.apply_timerRunning : s.apply.timerRunning = s.timerRunning := State.recomputeRange_timerRunning _
@[simp] theorem State.apply_timerArmed : s.apply.timerArmed = s.timerArmed := State.recomputeRange_timerArmed _
@[simp] theorem State.apply_timerLoad : s.apply.timerLoad = s.timerLoad := State.recomputeRange_timerLoad _
@[simp] theorem State.apply_timerRef : s.apply.timerRef = s.timerRef := State.recomputeRange_timerRef _
@[simp] theorem State.apply_auxValid : s.apply.auxValid = s.auxValid := State.recomputeRange_auxValid _
@[simp] theorem State.apply_auxFn : s.apply.auxFn = s.auxFn := State.recomputeRange_auxFn _
@[simp] theorem State.apply_ports : s.apply.ports = s.ports := State.recomputeRange_ports _
@[simp] theorem State.apply_gpo : s.apply.gpo = s.gpo := State.recomputeRange_gpo _
@[simp] theorem State.apply_gp16o : s.apply.gp16o = s.gp16o := State.recomputeRange_gp16o _
@[simp] theorem State.apply_cfg : s.apply.cfg = s.cfg := State.recomputeRange_cfg _
@[simp] theorem State.apply_counter : s.apply.counter = s.counter := State.recomputeRange_counter _
@[simp] theorem State.apply_lapse : s.apply.lapse = s.lapse := State.recomputeRange_lapse _
@[simp] theorem State.apply_active : s.apply.active = s.active := State.recomputeRange_active _
@[simp] theorem State.apply_turns : s.apply.turns = s.turns := State.recomputeRange_turns _
@[simp] theorem State.apply_elapsed : s.apply.elapsed = s.elapsed := State.recomputeRange_elapsed _
@[simp] theorem State.apply_auxAnswers : s.apply.auxAnswers = s.auxAnswers := State.recomputeRange_auxAnswers _
@[simp] theorem State.apply_draws : s.apply.draws = s.draws := State.recomputeRange_draws _

/-! ### The fields an operation writes -/

@[simp] theorem State.setChan_channels (i : Nat) (c : Channel) :
    (s.setChan i c).channels = s.channels.setIfInBounds i c := rfl
@[simp] theorem State.onPort_ports (f : Port → Port) : (s.onPort f).ports = s.ports.modify s.active f := rfl
@[simp] theorem State.requestEnable_toEnable (i : Nat) : (s.requestEnable i).toEnable = setBit s.toEnable i := rfl
@[simp] theorem State.requestDisable_toDisable (i : Nat) : (s.requestDisable i).toDisable = setBit s.toDisable i := rfl
@[simp] theorem State.disable_enabled (i : Nat) : (s.disable i).enabled = clearBit s.enabled i := rfl
@[simp] theorem State.setLevel_level (i : Nat) (b : Bool) : (s.setLevel i b).level = putBit s.level i b := rfl
@[simp] theorem State.setAuxFn_auxFn (fn : Word) : (s.setAuxFn fn).auxFn = fn := rfl
@[simp] theorem State.setAuxValid_auxValid (b : Bool) : (s.setAuxValid b).auxValid = b := rfl
@[simp] theorem State.enterPass_timerArmed : s.enterPass.timerArmed = false := rfl
@[simp] theorem State.enterPass_lapse : s.enterPass.lapse = 0 := rfl
@[simp] theorem State.tstop_timerRunning : s.tstop.timerRunning = false := rfl
@[simp] theorem State.tstop_timerArmed : s.tstop.timerArmed = false := rfl
@[simp] theorem State.sampleWithin_lapse (a b : Nat) : (s.sampleWithin a b).lapse = s.nextLapse a b := rfl
@[simp] theorem State.tarm_timerLoad (c : Word) : (s.tarm c).timerLoad = s.ticksOf c := rfl
@[simp] theorem State.tarm_timerRef (c : Word) : (s.tarm c).timerRef = s.sample.counter := rfl
@[simp] theorem State.tarm_counter (c : Word) : (s.tarm c).counter = s.sample.counter := rfl
@[simp] theorem State.tarm_timerArmed (c : Word) : (s.tarm c).timerArmed = true := rfl
@[simp] theorem State.tarm_lapse (c : Word) : (s.tarm c).lapse = s.nextLapse 0 spanLimit := rfl
@[simp] theorem State.tstart_timerRunning : s.tstart.timerRunning = true :=
  State.elapsedTaken_timerRunning _
@[simp] theorem State.tstart_timerArmed : s.tstart.timerArmed = true := rfl
@[simp] theorem State.tstart_lapse : s.tstart.lapse = s.nextLapse 0 spanLimit := rfl
@[simp] theorem State.tstart_timerRef : s.tstart.timerRef = s.sample.counter := rfl
@[simp] theorem State.tstart_counter : s.tstart.counter = s.sample.counter := rfl
@[simp] theorem State.tstart_timerLoad : s.tstart.timerLoad = s.ticksOf s.cfg.tKick := rfl
@[simp] theorem State.rearm_timerLoad (w : Word) : (s.rearm w).timerLoad = s.ticksOf (rearmDelay s.cfg w) := rfl
@[simp] theorem State.rearm_timerRef (w : Word) : (s.rearm w).timerRef = s.sample.counter := rfl
@[simp] theorem State.rearm_counter (w : Word) : (s.rearm w).counter = s.sample.counter := rfl
@[simp] theorem State.rearm_timerArmed (w : Word) : (s.rearm w).timerArmed = true := rfl
@[simp] theorem State.rearm_lapse (w : Word) : (s.rearm w).lapse = 0 := rfl
@[simp] theorem State.apply_enabled : s.apply.enabled = (s.enabled &&& ~~~s.toDisable) ||| s.toEnable :=
  State.recomputeRange_enabled _
@[simp] theorem State.apply_level : s.apply.level = s.level &&& ~~~s.toEnable := State.recomputeRange_level _
@[simp] theorem State.apply_toEnable : s.apply.toEnable = 0 := State.recomputeRange_toEnable _
@[simp] theorem State.apply_toDisable : s.apply.toDisable = 0 := State.recomputeRange_toDisable _

/-! ### Normal forms of the operations that are one other operation -/

@[simp] theorem State.goto_eq (c : Command) : s.goto c = s.onPort fun p => { p with cmd := some c } := rfl
@[simp] theorem State.finish_eq (b : Bool) : s.finish b = s.onPort fun p => { p with cmd := none, result := b } := rfl
@[simp] theorem State.frameTaken_eq : s.frameTaken = s.onPort fun p => { p with inbox := p.inbox.tail } := rfl
@[simp] theorem State.setDuty_eq (i : Nat) (v : Word) : s.setDuty i v = s.setChan i { s.chan i with duty := v } := rfl
@[simp] theorem State.setPeriod_eq (i : Nat) (v : Word) :
    s.setPeriod i v = s.setChan i { s.chan i with period := v } := rfl
@[simp] theorem State.setExpiry_eq (i : Nat) (v : Word) :
    s.setExpiry i v = s.setChan i { s.chan i with expiry := v } := rfl
@[simp] theorem State.setMode_eq (i : Nat) (m : Mode) : s.setMode i m = s.setChan i { s.chan i with mode := m } := rfl
@[simp] theorem State.sample_eq : s.sample = s.sampleWithin 0 spanLimit := rfl
@[simp] theorem State.sampleBeforeSweeps_eq :
    s.sampleBeforeSweeps = s.sampleWithin 0 (if s.enabled = 0 then spanLimit else spanLimit - 1) := rfl
@[simp] theorem State.sampleAfterSweep_eq : s.sampleAfterSweep = s.sampleWithin 1 spanLimit := rfl

end Sys2Proof.Machine
end

