-- ==== Sys2Proof/Laws/Flags.lean ====
section
/-! SUPPORT. The masks bit by bit, signed comparison as comparison of integers, the bit counts and the scan range. -/

namespace Sys2Proof.Machine

/-! ### Masks -/

theorem maskBit_of_ge (m : Word) {i : Nat} (h : 32 ≤ i) : maskBit m i = false := BitVec.getLsbD_of_ge m i h

@[simp] theorem maskBit_zero (i : Nat) : maskBit 0#32 i = false := by simp [maskBit]

theorem maskBit_bit (i j : Nat) : maskBit (bit i) j = (decide (j < 32) && decide (j = i)) := by
  unfold maskBit bit
  rw [BitVec.getLsbD_shiftLeft]
  by_cases h : j < 32 <;> by_cases h2 : j = i
  · subst h2; simp [h]
  · simp only [h, decide_true, Bool.true_and, h2, decide_false, Bool.and_eq_false_imp, Bool.not_eq_true']
    intro h3
    simp only [decide_eq_false_iff_not, not_lt] at h3
    simp only [BitVec.getLsbD_one, Bool.and_eq_false_imp, decide_eq_true_eq, decide_eq_false_iff_not]
    omega
  · simp [h]
  · simp [h]

theorem maskBit_setBit (m : Word) (i j : Nat) :
    maskBit (setBit m i) j = (maskBit m j || (decide (j < 32) && decide (j = i))) := by
  rw [← maskBit_bit]; simp [maskBit, setBit]

theorem maskBit_clearBit (m : Word) (i j : Nat) : maskBit (clearBit m i) j = (maskBit m j && !decide (j = i)) := by
  by_cases h : j < 32
  · have := maskBit_bit i j
    simp only [h, decide_true, Bool.true_and] at this
    rw [← this]; simp [maskBit, clearBit, h]
  · simp [maskBit_of_ge _ (not_lt.mp h)]

theorem maskBit_setBit_self (m : Word) {i : Nat} (h : i < 32) : maskBit (setBit m i) i = true := by
  simp [maskBit_setBit, h]

theorem maskBit_setBit_of_ne (m : Word) {i j : Nat} (h : j ≠ i) : maskBit (setBit m i) j = maskBit m j := by
  simp [maskBit_setBit, h]

theorem maskBit_clearBit_self (m : Word) (i : Nat) : maskBit (clearBit m i) i = false := by
  simp [maskBit_clearBit]

theorem maskBit_clearBit_of_ne (m : Word) {i j : Nat} (h : j ≠ i) : maskBit (clearBit m i) j = maskBit m j := by
  simp [maskBit_clearBit, h]

@[simp] theorem putBit_true (m : Word) (i : Nat) : putBit m i true = setBit m i := rfl

@[simp] theorem putBit_false (m : Word) (i : Nat) : putBit m i false = clearBit m i := rfl

theorem maskBit_putBit_of_ne (m : Word) {i j : Nat} (h : j ≠ i) (b : Bool) :
    maskBit (putBit m i b) j = maskBit m j := by
  cases b
  · exact maskBit_clearBit_of_ne m h
  · exact maskBit_setBit_of_ne m h

/-- The fold of the request masks, bit by bit (R122). -/
theorem maskBit_fold (a b c : Word) (i : Nat) :
    maskBit ((a &&& ~~~b) ||| c) i = ((maskBit a i && !maskBit b i) || maskBit c i) := by
  by_cases h : i < 32
  · simp [maskBit, h]
  · simp [maskBit_of_ge _ (not_lt.mp h)]

theorem maskBit_and_not (a b : Word) (i : Nat) : maskBit (a &&& ~~~b) i = (maskBit a i && !maskBit b i) := by
  by_cases h : i < 32
  · simp [maskBit, h]
  · simp [maskBit_of_ge _ (not_lt.mp h)]

/-- Two words with the same bits are the same. -/
theorem eq_of_maskBit {a b : Word} (h : ∀ i, i < 32 → maskBit a i = maskBit b i) : a = b :=
  BitVec.eq_of_getLsbD_eq fun i hi => h i hi

/-- A word that is not 0 has a bit. -/
theorem exists_maskBit {m : Word} (h : m ≠ 0) : ∃ i, i < 32 ∧ maskBit m i = true := by
  by_contra hc
  apply h
  apply eq_of_maskBit
  intro i hi
  cases hb : maskBit m i
  · simp
  · exact absurd ⟨i, hi, hb⟩ hc

/-! ### Signed comparison -/

theorem signed_eq_toInt (v : Word) : signed v = v.toInt := by
  unfold signed
  rw [BitVec.toInt_eq_toNat_cond]
  norm_num
  split <;> split <;> omega

theorem slt_iff (a b : Word) : slt a b = true ↔ signed a < signed b := by
  rw [signed_eq_toInt, signed_eq_toInt]; simp [slt, BitVec.slt]

theorem sle_iff (a b : Word) : sle a b = true ↔ signed a ≤ signed b := by
  rw [signed_eq_toInt, signed_eq_toInt]; simp [sle, BitVec.sle]

theorem sle_eq_false_iff (a b : Word) : sle a b = false ↔ signed b < signed a := by
  rw [← not_iff_not]; simp [sle_iff]

theorem slt_eq_false_iff (a b : Word) : slt a b = false ↔ signed b ≤ signed a := by
  rw [← not_iff_not]; simp [slt_iff]

theorem signed_minS (a b : Word) : signed (minS a b) = min (signed a) (signed b) := by
  unfold minS
  split
  · rename_i h; rw [slt_iff] at h; omega
  · rename_i h; rw [slt_iff] at h; omega

@[simp] theorem signed_zero : signed 0 = 0 := by decide

/-! ### Bit counts (R14) and the scan range (R123, R124) -/

theorem ctz_spec {v : Word} (h : v ≠ 0) :
    ctz v < 32 ∧ maskBit v (ctz v) = true ∧ ∀ i, maskBit v i = true → ctz v ≤ i := by
  obtain ⟨k, hk, hb⟩ := exists_maskBit h
  unfold ctz
  cases hf : (List.range 32).find? fun i => v.getLsbD i with
  | none =>
    rw [List.find?_eq_none] at hf
    exact absurd hb (hf k (List.mem_range.mpr hk))
  | some c =>
    rw [List.find?_range_eq_some] at hf
    refine ⟨List.mem_range.mp hf.2.1, hf.1, fun i hi => ?_⟩
    by_contra hlt
    have := hf.2.2 i (by simpa using hlt)
    simp [maskBit] at hi
    simp [hi] at this

theorem msb_spec {v : Word} (h : v ≠ 0) :
    msb v < 32 ∧ maskBit v (msb v) = true ∧ ∀ i, maskBit v i = true → i ≤ msb v := by
  obtain ⟨k, hk, hb⟩ := exists_maskBit h
  unfold msb clz
  cases hf : (List.range 32).find? fun k => v.getLsbD (31 - k) with
  | none =>
    rw [List.find?_eq_none] at hf
    have := hf (31 - k) (List.mem_range.mpr (by omega))
    have e : 31 - (31 - k) = k := by omega
    rw [e] at this
    exact absurd hb this
  | some c =>
    rw [List.find?_range_eq_some] at hf
    refine ⟨by simp; omega, hf.1, fun i hi => ?_⟩
    have hi32 : i < 32 := by
      by_contra hge
      rw [maskBit_of_ge v (not_lt.mp hge)] at hi
      exact absurd hi (by simp)
    by_contra hlt
    simp only [Option.getD_some, not_le] at hlt
    have := hf.2.2 (31 - i) (by omega)
    have e : 31 - (31 - i) = i := by omega
    rw [e] at this
    simp [maskBit] at hi
    simp [hi] at this

theorem mem_scanRange (s : State) (i : Nat) :
    i ∈ s.scanRange ↔ s.firstActivePin.toNat ≤ i ∧ i ≤ s.lastActivePin.toNat := by
  unfold State.scanRange
  rw [List.mem_range'_1]
  omega

theorem scanRange_nodup (s : State) : s.scanRange.Nodup := by
  unfold State.scanRange; exact List.nodup_range'

/-- RANGE bounds the enabled set (R123). -/
theorem recomputeRange_bounds (s : State) {i : Nat} (h : maskBit s.enabled i = true) :
    s.recomputeRange.firstActivePin.toNat ≤ i ∧ i ≤ s.recomputeRange.lastActivePin.toNat := by
  have hne : s.enabled ≠ 0 := by
    intro h0; rw [h0] at h; simp at h
  obtain ⟨hc, -, hcl⟩ := ctz_spec hne
  obtain ⟨hm, -, hml⟩ := msb_spec hne
  have h1 := hcl i h
  have h2 := hml i h
  simp only [State.recomputeRange, hne, ne_eq, not_false_eq_true, if_true, BitVec.toNat_ofNat]
  omega

end Sys2Proof.Machine
end

