-- ==== Sys2Proof/Laws/Ops.lean ====
section
/-! SUPPORT. For each shared operation of Machine/Ops.lean, what it can do: the Channel Table, the output latches, the samples
of the counter, the active port. -/

namespace Sys2Proof.Machine

/-! ### The Channel Table -/

theorem chan_eq_of_channels {s t : State} (h : t.channels = s.channels) (i : Nat) : t.chan i = s.chan i := by
  simp [State.chan, h]

theorem chan_of_ge (s : State) {i : Nat} (h : 17 ≤ i) : s.chan i = Channel.reset := by
  simp [State.chan, h]

@[simp] theorem chan_setChan_self (s : State) {i : Nat} (h : i < 17) (c : Channel) : (s.setChan i c).chan i = c := by
  simp [State.chan, h]

@[simp] theorem chan_setChan_of_ne (s : State) {i j : Nat} (h : j ≠ i) (c : Channel) :
    (s.setChan i c).chan j = s.chan j := by
  simp [State.chan, h.symm]

theorem chan_setChan (s : State) (i j : Nat) (c : Channel) :
    (s.setChan i c).chan j = if j = i ∧ i < 17 then c else s.chan j := by
  by_cases hj : j = i
  · subst hj
    by_cases hi : j < 17
    · simp [hi]
    · rw [chan_of_ge _ (by omega), chan_of_ge _ (by omega)]; simp [hi]
  · simp [hj]

/-- Writing back the record that is there changes nothing. -/
theorem setChan_chan (s : State) (i : Nat) : s.setChan i (s.chan i) = s := by
  have : s.channels.setIfInBounds i (s.chan i) = s.channels := by
    apply Vector.ext
    intro j hj
    rw [Vector.getElem_setIfInBounds]
    split
    · rename_i h; subst h; simp [State.chan, hj]
    · rfl
  simp [State.setChan, this]

/-- A write beyond the table changes nothing. -/
theorem setChan_of_ge (s : State) {i : Nat} (h : 17 ≤ i) (c : Channel) : s.setChan i c = s := by
  have : s.channels.setIfInBounds i c = s.channels := by
    apply Vector.ext
    intro j hj
    rw [Vector.getElem_setIfInBounds, if_neg (by omega)]
  simp [State.setChan, this]

@[simp] theorem setChan_setChan (s : State) (i : Nat) (c d : Channel) :
    (s.setChan i c).setChan i d = s.setChan i d := by
  simp [State.setChan]

/-! ### Output latches (R39) -/

theorem latch_gpioSet_self (s : State) {i : Nat} (h : i ≤ 16) : (s.gpioSet i).latch i = true := by
  unfold State.gpioSet State.latch
  split
  · rfl
  · have : i < 16 := by omega
    simp [this]

theorem latch_gpioSet_of_ne (s : State) {i j : Nat} (h : j ≠ i) : (s.gpioSet i).latch j = s.latch j := by
  unfold State.gpioSet State.latch
  by_cases hi : i = 16
  · subst hi; simp [h]
  · by_cases hj : j = 16
    · simp [hi, hj]
    · simp only [hi, if_false, hj]
      by_cases hlt : j < 16
      · simp [hlt]
        intro hle hb
        exact absurd hb (by omega)
      · rw [BitVec.getLsbD_of_ge _ _ (by omega), BitVec.getLsbD_of_ge _ _ (by omega)]

theorem latch_gpioClear_self (s : State) (i : Nat) : (s.gpioClear i).latch i = false := by
  unfold State.gpioClear State.latch
  split
  · rfl
  · by_cases hlt : i < 16
    · simp [hlt]
    · rw [BitVec.getLsbD_of_ge _ _ (by omega)]

theorem latch_gpioClear_of_ne (s : State) {i j : Nat} (h : j ≠ i) : (s.gpioClear i).latch j = s.latch j := by
  unfold State.gpioClear State.latch
  by_cases hi : i = 16
  · subst hi; simp [h]
  · by_cases hj : j = 16
    · simp [hi, hj]
    · simp only [hi, if_false, hj]
      by_cases hlt : j < 16
      · simp [hlt]
        intro hb
        omega
      · rw [BitVec.getLsbD_of_ge _ _ (by omega), BitVec.getLsbD_of_ge _ _ (by omega)]

theorem latch_of_gt (s : State) {i : Nat} (h : 16 < i) : s.latch i = false := by
  unfold State.latch
  rw [if_neg (by omega), BitVec.getLsbD_of_ge _ _ (by omega)]

/-- Everything a write of a latch does, by the pin (R39). -/
theorem gpioSet_eq (s : State) {i : Nat} (h : i ≤ 16) : s.gpioSet i =
    { s with
      gpo := if i < 16 then s.gpo ||| (1#16 <<< i) else s.gpo
      gp16o := if i = 16 then true else s.gp16o } := by
  unfold State.gpioSet
  by_cases h6 : i = 16
  · simp [h6]
  · simp [h6, show i < 16 by omega]

/-- Everything a clear of a latch does, by the pin (R39). -/
theorem gpioClear_eq (s : State) {i : Nat} (h : i ≤ 16) : s.gpioClear i =
    { s with
      gpo := if i < 16 then s.gpo &&& ~~~(1#16 <<< i) else s.gpo
      gp16o := if i = 16 then false else s.gp16o } := by
  unfold State.gpioClear
  by_cases h6 : i = 16
  · simp [h6]
  · simp [h6, show i < 16 by omega]

/-- The latches are the two output fields. -/
theorem latch_eq_of_outputs {s t : State} (h : t.gpo = s.gpo) (h' : t.gp16o = s.gp16o) (i : Nat) :
    t.latch i = s.latch i := by
  simp [State.latch, h, h']

/-! ### Samples (R40) -/

theorem nextLapse_ge (s : State) (least ceiling : Nat) : s.lapse + least ≤ s.nextLapse least ceiling := by
  unfold State.nextLapse; omega

theorem nextLapse_le (s : State) {least ceiling : Nat} (h : s.lapse + least ≤ ceiling) :
    s.nextLapse least ceiling ≤ ceiling := by
  unfold State.nextLapse; omega

/-- A sample advances the counter by what it adds to the lapse. -/
theorem sampleWithin_counter (s : State) (least ceiling : Nat) :
    (s.sampleWithin least ceiling).counter =
      s.counter + BitVec.ofNat 32 ((s.sampleWithin least ceiling).lapse - s.lapse) := rfl

/-- Within a pass the counter is the entry sample plus the lapse, and a sample keeps it so. -/
theorem sampleWithin_counter_of_anchor (s : State) (entry : Word) (least ceiling : Nat)
    (h : s.counter = entry + BitVec.ofNat 32 s.lapse) :
    (s.sampleWithin least ceiling).counter = entry + BitVec.ofNat 32 (s.sampleWithin least ceiling).lapse := by
  rw [sampleWithin_counter, h, BitVec.add_assoc, ← BitVec.ofNat_add]
  have := nextLapse_ge s least ceiling
  simp only [State.sampleWithin_lapse]
  congr 2; omega

/-! ### The re-arm (R137) -/

/-- The delay of the re-arm: the candidate less the compensation, clamped to the minimum. -/
theorem rearmDelay_eq (c : Cfg) (cand : Word) :
    rearmDelay c cand = if signed (cand - c.tComp) < signed c.tMinArm then c.tMinArm else cand - c.tComp := by
  unfold rearmDelay
  simp only [slt_iff]

/-- Everything the re-arm does. -/
theorem rearm_all (s : State) (cand : Word) : s.rearm cand =
    { s with
      timerLoad := if s.cfg.clockFast then rearmDelay s.cfg cand >>> 1 else rearmDelay s.cfg cand
      timerRef := s.sample.counter
      timerArmed := true
      counter := s.sample.counter
      lapse := 0
      elapsed := s.sample.elapsed
      draws := s.sample.draws } := by
  obtain ⟨channels, enabled, level, toEnable, toDisable, first, last, running, armed, load, ref, auxValid, auxFn, ports, gpo,
    gp16o, cfg, counter, lapse, active, turns, elapsed, answers, draws⟩ := s
  cases elapsed <;> rfl

/-! ### The active port -/

theorem ports_length_onPort (s : State) (f : Port → Port) : (s.onPort f).ports.length = s.ports.length := by
  simp

theorem ports_onPort_of_ne (s : State) (f : Port → Port) {q : Nat} (h : q ≠ s.active) :
    (s.onPort f).ports[q]? = s.ports[q]? := by
  simp [h.symm]

theorem ports_onPort_active (s : State) (f : Port → Port) :
    (s.onPort f).ports[s.active]? = (s.ports[s.active]?).map f := by
  simp

/-- A port of the changed list is a port of the old one, or the active port changed. -/
theorem mem_ports_onPort {s : State} {f : Port → Port} {p : Port} (h : p ∈ (s.onPort f).ports) :
    p ∈ s.ports ∨ ∃ q, s.activePort = some q ∧ p = f q := by
  obtain ⟨n, hn⟩ := List.mem_iff_getElem?.mp h
  by_cases ha : n = s.active
  · subst ha
    rw [ports_onPort_active] at hn
    cases hq : s.ports[s.active]? with
    | none => simp [hq] at hn
    | some q =>
      simp [hq] at hn
      exact .inr ⟨q, hq, hn.symm⟩
  · rw [ports_onPort_of_ne s f ha] at hn
    exact .inl (List.mem_of_getElem? hn)

end Sys2Proof.Machine
end

