-- ==== Sys2Proof/Laws/Service.lean ====
section
/-! SUPPORT. What SERVICE can do, said once: the drift loop by the number of its advances, each branch of the edge, and the
whole effect of a service on the state. -/

namespace Sys2Proof.Machine

/-! ### The mode conversions (R126, R127) -/

@[simp] theorem prepared_duty (c : Channel) (now : Word) : (c.prepared now).duty = c.duty := by
  unfold Channel.prepared Channel.converted Channel.initialised
  split <;> split <;> rfl

@[simp] theorem prepared_period (c : Channel) (now : Word) : (c.prepared now).period = c.period := by
  unfold Channel.prepared Channel.converted Channel.initialised
  split <;> split <;> rfl

/-- The mode after the conversions, from the mode before them (R138). -/
theorem prepared_mode (c : Channel) (now : Word) :
    (c.prepared now).mode =
      match c.mode with
      | .init => if c.expiry = 0 then .infinite else .expires
      | .updateExpiry => .expires
      | .expires => .expires
      | .infinite => .infinite := by
  rcases c with ⟨ph, d, p, e, m⟩
  cases m
  · by_cases he : e = 0#32 <;> simp [Channel.prepared, Channel.converted, Channel.initialised, he]
  all_goals simp [Channel.prepared, Channel.converted, Channel.initialised]

theorem prepared_of_expires {c : Channel} (h : c.mode = .expires) (now : Word) : c.prepared now = c := by
  simp [Channel.prepared, Channel.converted, Channel.initialised, h]

theorem prepared_of_infinite {c : Channel} (h : c.mode = .infinite) (now : Word) : c.prepared now = c := by
  simp [Channel.prepared, Channel.converted, Channel.initialised, h]

/-- A fresh channel that runs for ever (R126). -/
theorem prepared_of_init_forever {c : Channel} (h : c.mode = .init) (he : c.expiry = 0) (now : Word) :
    c.prepared now = { c with phaseStart := now, mode := .infinite } := by
  simp [Channel.prepared, Channel.converted, Channel.initialised, h, he]

/-- A fresh channel with a finite duration: both conversions in one service (R126, R127). -/
theorem prepared_of_init_finite {c : Channel} (h : c.mode = .init) (he : c.expiry ≠ 0) (now : Word) :
    c.prepared now = { c with phaseStart := now, expiry := c.expiry + now, mode := .expires } := by
  have he' : ¬ c.expiry = 0#32 := he
  simp [Channel.prepared, Channel.converted, Channel.initialised, h, he']

/-- A duration given to a running channel counts from its phase (R127). -/
theorem prepared_of_updateExpiry {c : Channel} (h : c.mode = .updateExpiry) (now : Word) :
    c.prepared now = { c with expiry := c.expiry + c.phaseStart, mode := .expires } := by
  simp [Channel.prepared, Channel.converted, Channel.initialised, h]

theorem prepared_phase {c : Channel} (h : c.mode ≠ .init) (now : Word) :
    (c.prepared now).phaseStart = c.phaseStart := by
  unfold Channel.prepared Channel.converted Channel.initialised
  simp only [h, if_false]
  split <;> rfl

theorem prepared_mode_ne_init (c : Channel) (now : Word) : (c.prepared now).mode ≠ .init := by
  rw [prepared_mode]
  cases c.mode <;> simp
  split <;> simp

/-! ### The drift loop (R132) -/

/-- The phase after `k` advances. -/
theorem ofNat_succ_mul (k : Nat) (p : Word) : BitVec.ofNat 32 (k + 1) * p = p + BitVec.ofNat 32 k * p := by
  rw [BitVec.ofNat_add, BitVec.add_mul]
  simp [BitVec.add_comm]

/-- The loop answers after `n` advances iff the continuation test fails first at the `n`-th. -/
theorem driftLoop_eq (period duty now : Word) :
    ∀ (n fuel : Nat) (phase : Word), n < fuel →
      (∀ j, 1 ≤ j → j ≤ n → sle (phase + BitVec.ofNat 32 j * period - now) (-duty) = true) →
      sle (phase + BitVec.ofNat 32 (n + 1) * period - now) (-duty) = false →
      driftLoop period duty now fuel phase = some (phase + BitVec.ofNat 32 (n + 1) * period)
  | 0, fuel + 1, phase, _, _, hstop => by
    have e : BitVec.ofNat 32 (0 + 1) * period = period := by
      rw [ofNat_succ_mul]; simp
    rw [e] at hstop ⊢
    simp [driftLoop, hstop]
  | n + 1, fuel + 1, phase, hlt, hgo, hstop => by
    have h1 : sle (phase + period - now) (-duty) = true := by
      have := hgo 1 (by omega) (by omega)
      rwa [show BitVec.ofNat 32 1 * period = period by rw [ofNat_succ_mul 0]; simp] at this
    have e : ∀ j, phase + period + BitVec.ofNat 32 j * period = phase + BitVec.ofNat 32 (j + 1) * period := by
      intro j; rw [ofNat_succ_mul, BitVec.add_assoc]
    rw [driftLoop, if_pos h1, driftLoop_eq period duty now n fuel (phase + period) (by omega), e]
    · intro j h1j hjn
      rw [e]; exact hgo (j + 1) (by omega) (by omega)
    · rw [e]; exact hstop

/-- A loop that answers has made some number of advances, each but the last under the continuation test. -/
theorem driftLoop_some (period duty now : Word) :
    ∀ (fuel : Nat) (phase phase' : Word), driftLoop period duty now fuel phase = some phase' →
      ∃ n, n < fuel ∧ phase' = phase + BitVec.ofNat 32 (n + 1) * period
  | fuel + 1, phase, phase', h => by
    unfold driftLoop at h
    split at h
    · obtain ⟨n, hn, rfl⟩ := driftLoop_some period duty now fuel _ _ h
      exact ⟨n + 1, by omega, by rw [ofNat_succ_mul (n + 1), BitVec.add_assoc]⟩
    · simp only [Option.some.injEq] at h
      exact ⟨0, by omega, by rw [← h, ofNat_succ_mul 0]; simp⟩

/-! ### The edge -/

theorem edgeDue_iff (ne er : Word) : edgeDue ne er = true ↔ signed ne ≤ 0 ∧ signed ne < signed er := by
  simp only [edgeDue, Bool.and_eq_true, sle_iff, slt_iff, show signed 0 = 0 from signed_zero]

/-- Everything a toggle to high does (R131). -/
theorem toggleHigh_eq (s : State) {i : Nat} (h : i ≤ 16) (ne : Word) : s.toggleHigh i ne =
    ({ s with
      level := s.level ||| (1#32 <<< i)
      gpo := if (s.chan i).duty ≠ 0 ∧ i < 16 then s.gpo ||| (1#16 <<< i) else s.gpo
      gp16o := if (s.chan i).duty ≠ 0 ∧ i = 16 then true else s.gp16o }, ne + (s.chan i).duty) := by
  unfold State.toggleHigh
  by_cases hd : (s.chan i).duty = 0
  · simp only [hd, ne_eq, not_true, if_false, false_and]; rfl
  · simp only [hd, ne_eq, not_false_eq_true, if_true, true_and, gpioSet_eq _ h]; rfl

/-- Everything the level and the latch do in a toggle to low (R132). -/
theorem lowered_eq (s : State) {i : Nat} (h : i ≤ 16) : s.lowered i =
    { s with
      level := s.level &&& ~~~(1#32 <<< i)
      gpo := if (s.chan i).duty ≠ (s.chan i).period ∧ i < 16 then s.gpo &&& ~~~(1#16 <<< i) else s.gpo
      gp16o := if (s.chan i).duty ≠ (s.chan i).period ∧ i = 16 then false else s.gp16o } := by
  unfold State.lowered
  by_cases hd : (s.chan i).duty = (s.chan i).period
  · simp only [hd, ne_eq, not_true, if_false, false_and]; rfl
  · simp only [hd, ne_eq, not_false_eq_true, if_true, true_and, gpioClear_eq _ h]; rfl

/-- Everything an edge can do (R130 to R132). -/
theorem edge_cases {s t : State} {i : Nat} {ne er ne' : Word} (h : s.edge i ne er = some (t, ne')) :
    (edgeDue ne er = false ∧ t = s ∧ ne' = ne) ∨
    (edgeDue ne er = true ∧ maskBit s.level i = false ∧ (t, ne') = s.toggleHigh i ne) ∨
    (edgeDue ne er = true ∧ maskBit s.level i = true ∧ s.toggleLow i = some (t, ne')) := by
  unfold State.edge at h
  cases hd : edgeDue ne er <;> simp only [hd, Bool.false_eq_true, if_false, if_true] at h
  · simp only [Option.some.injEq, Prod.mk.injEq] at h
    exact .inl ⟨rfl, h.1.symm, h.2.symm⟩
  · cases hl : maskBit s.level i <;> simp only [hl, Bool.false_eq_true, if_false, if_true] at h
    · simp only [Option.some.injEq] at h
      exact .inr (.inl ⟨rfl, rfl, h.symm⟩)
    · exact .inr (.inr ⟨rfl, rfl, h⟩)

/-- Everything a toggle to low can do (R132). -/
theorem toggleLow_cases {s t : State} {i : Nat} {ne' : Word} (h : s.toggleLow i = some (t, ne')) :
    ∃ phase, driftLoop (s.chan i).period (s.chan i).duty s.counter driftFuel (s.chan i).phaseStart = some phase ∧
      ne' = phase - s.counter ∧ t = (s.lowered i).setChan i { s.chan i with phaseStart := phase } := by
  unfold State.toggleLow at h
  split at h
  · exact absurd h (by simp)
  · rename_i phase hp
    simp only [Option.some.injEq, Prod.mk.injEq] at h
    exact ⟨phase, hp, h.2.symm, h.1.symm⟩

/-! ### The whole service -/

/-- Everything a service of channel `i` can do to the state (R125). -/
structure ServiceEffect (i : Nat) (s t : State) : Prop where
  cfg : t.cfg = s.cfg
  counter : t.counter = s.counter
  lapse : t.lapse = s.lapse
  toEnable : t.toEnable = s.toEnable
  toDisable : t.toDisable = s.toDisable
  firstActivePin : t.firstActivePin = s.firstActivePin
  lastActivePin : t.lastActivePin = s.lastActivePin
  timerRunning : t.timerRunning = s.timerRunning
  timerArmed : t.timerArmed = s.timerArmed
  auxValid : t.auxValid = s.auxValid
  auxFn : t.auxFn = s.auxFn
  auxAnswers : t.auxAnswers = s.auxAnswers
  ports : t.ports = s.ports
  active : t.active = s.active
  /-- The other records are as they were. -/
  others : ∀ j, j ≠ i → t.chan j = s.chan j
  /-- The record is the converted one, advanced by whole periods. -/
  record : i < 17 → ∃ k : Nat, t.chan i =
    { (s.chan i).prepared s.counter with
      phaseStart := ((s.chan i).prepared s.counter).phaseStart + BitVec.ofNat 32 k * (s.chan i).period }
  level : ∀ j, j ≠ i → maskBit t.level j = maskBit s.level j
  latch : ∀ j, j ≠ i → t.latch j = s.latch j
  /-- R141: with equal duty and period the latch is not cleared. -/
  notCleared : (s.chan i).duty = (s.chan i).period → s.latch i = true → t.latch i = true
  /-- R143: with duty 0 the latch is not set. -/
  notSet : (s.chan i).duty = 0 → s.latch i = false → t.latch i = false
  /-- The channel is disabled iff it expires (R133). -/
  enabled : t.enabled =
    if ((s.setChan i ((s.chan i).prepared s.counter)).chan i).mode = .expires ∧
        sle (((s.chan i).prepared s.counter).expiry - s.counter) 0 = true then
      clearBit s.enabled i
    else s.enabled

/-- What the edge does, before the settlement. -/
structure EdgeEffect (i : Nat) (s t : State) : Prop where
  cfg : t.cfg = s.cfg
  counter : t.counter = s.counter
  lapse : t.lapse = s.lapse
  toEnable : t.toEnable = s.toEnable
  toDisable : t.toDisable = s.toDisable
  firstActivePin : t.firstActivePin = s.firstActivePin
  lastActivePin : t.lastActivePin = s.lastActivePin
  timerRunning : t.timerRunning = s.timerRunning
  timerArmed : t.timerArmed = s.timerArmed
  auxValid : t.auxValid = s.auxValid
  auxFn : t.auxFn = s.auxFn
  auxAnswers : t.auxAnswers = s.auxAnswers
  ports : t.ports = s.ports
  active : t.active = s.active
  others : ∀ j, j ≠ i → t.chan j = s.chan j
  record : ∃ k : Nat, t.chan i =
    { s.chan i with phaseStart := (s.chan i).phaseStart + BitVec.ofNat 32 k * (s.chan i).period } ∨
    t.chan i = s.chan i
  level : ∀ j, j ≠ i → maskBit t.level j = maskBit s.level j
  latch : ∀ j, j ≠ i → t.latch j = s.latch j
  notCleared : (s.chan i).duty = (s.chan i).period → s.latch i = true → t.latch i = true
  notSet : (s.chan i).duty = 0 → s.latch i = false → t.latch i = false
  enabled : t.enabled = s.enabled

theorem EdgeEffect.refl (i : Nat) (s : State) : EdgeEffect i s s := by
  constructor <;> first | rfl | (intros; first | rfl | assumption) | skip
  exact ⟨0, .inr rfl⟩

theorem toggleHigh_effect (s : State) (i : Nat) (ne : Word) : EdgeEffect i s (s.toggleHigh i ne).1 := by
  unfold State.toggleHigh
  by_cases hd : (s.chan i).duty = 0
  · simp only [hd, ne_eq, not_true, if_false]
    constructor <;> first | rfl | (intros; first | rfl | assumption) | skip
    · exact ⟨0, .inr rfl⟩
    · intro j hj; exact maskBit_setBit_of_ne _ hj
  · simp only [hd, ne_eq, not_false_eq_true, if_true]
    constructor <;> first | (simp; done) | skip
    · intro j _; exact chan_eq_of_channels (by simp) j
    · exact ⟨0, .inr (chan_eq_of_channels (by simp) i)⟩
    · intro j hj; simp [maskBit_setBit_of_ne _ hj]
    · intro j hj; rw [latch_gpioSet_of_ne _ hj]; rfl
    · intro _ hl
      rcases Nat.lt_or_ge 16 i with hi | hi
      · rw [latch_of_gt _ hi] at hl; exact absurd hl (by simp)
      · exact latch_gpioSet_self _ hi
    · intro h; exact absurd h hd

theorem lowered_level (s : State) (i : Nat) : (s.lowered i).level = clearBit s.level i := by
  unfold State.lowered; split <;> simp

theorem lowered_latch_of_ne (s : State) {i j : Nat} (h : j ≠ i) : (s.lowered i).latch j = s.latch j := by
  unfold State.lowered
  split
  · rw [latch_gpioClear_of_ne _ h]; rfl
  · rfl

/-- R132, R141: the latch goes low unless the channel is constant high. -/
theorem lowered_latch_self (s : State) (i : Nat) :
    (s.lowered i).latch i = if (s.chan i).duty = (s.chan i).period then s.latch i else false := by
  unfold State.lowered
  by_cases hd : (s.chan i).duty = (s.chan i).period
  · simp only [hd, ne_eq, not_true, if_false, if_true]; rfl
  · simp only [hd, ne_eq, not_false_eq_true, if_true, if_false]; exact latch_gpioClear_self _ _

theorem toggleLow_effect {s t : State} {i : Nat} {ne' : Word} (h : s.toggleLow i = some (t, ne')) :
    EdgeEffect i s t := by
  obtain ⟨phase, hp, -, rfl⟩ := toggleLow_cases h
  obtain ⟨n, -, rfl⟩ := driftLoop_some _ _ _ _ _ _ hp
  have hl : ∀ c j, ((s.lowered i).setChan i c).latch j = (s.lowered i).latch j := fun _ _ => rfl
  constructor <;> first | (simp; done) | skip
  · intro j hj; rw [chan_setChan_of_ne _ hj]; exact chan_eq_of_channels (by simp) j
  · refine ⟨n + 1, ?_⟩
    rw [chan_setChan]
    split
    · exact .inl rfl
    · exact .inr (chan_eq_of_channels (by simp) i)
  · intro j hj; rw [State.setChan_level, lowered_level, maskBit_clearBit_of_ne _ hj]
  · intro j hj; rw [hl, lowered_latch_of_ne _ hj]
  · intro hd hs; rw [hl, lowered_latch_self, if_pos hd, hs]
  · intro _ hs; rw [hl, lowered_latch_self, hs]; simp

theorem edge_effect {s t : State} {i : Nat} {ne er ne' : Word} (h : s.edge i ne er = some (t, ne')) :
    EdgeEffect i s t := by
  rcases edge_cases h with ⟨-, rfl, -⟩ | ⟨-, -, ht⟩ | ⟨-, -, ht⟩
  · exact EdgeEffect.refl i _
  · have := toggleHigh_effect s i ne
    rw [← ht] at this; exact this
  · exact toggleLow_effect ht

/-- A service answers what its edge answers, settled (R125, R133). -/
theorem service_some {s t : State} {i : Nat} {cand cand' : Word} (h : s.service i cand = some (t, cand')) :
    ∃ u ne', (s.setChan i ((s.chan i).prepared s.counter)).edge i
        (((s.chan i).prepared s.counter).nextEvent (maskBit s.level i) s.counter)
        (((s.chan i).prepared s.counter).expiryRemaining
          (((s.chan i).prepared s.counter).nextEvent (maskBit s.level i) s.counter) s.counter) = some (u, ne') ∧
      (t, cand') = u.settle i ne'
        (((s.chan i).prepared s.counter).expiryRemaining
          (((s.chan i).prepared s.counter).nextEvent (maskBit s.level i) s.counter) s.counter) cand := by
  unfold State.service at h
  simp only [Option.map_eq_some_iff] at h
  obtain ⟨⟨u, ne'⟩, hu, ht⟩ := h
  exact ⟨u, ne', hu, ht.symm⟩

/-- Everything a settlement does, the candidate included (R133). -/
theorem settle_all (s : State) (i : Nat) (ne er cand : Word) : s.settle i ne er cand =
    ({ s with
      enabled := if (s.chan i).mode = .expires ∧ signed er ≤ 0 then s.enabled &&& ~~~(1#32 <<< i) else s.enabled },
      if (s.chan i).mode = .expires ∧ signed er ≤ 0 then minS cand ne else minS (minS cand ne) er) := by
  unfold State.settle
  have e : sle er 0 = true ↔ signed er ≤ 0 := by rw [sle_iff, signed_zero]
  simp only [e]
  split <;> rfl

theorem settle_fst (s : State) (i : Nat) (ne er cand : Word) :
    (s.settle i ne er cand).1 = if (s.chan i).mode = .expires ∧ sle er 0 = true then s.disable i else s := by
  unfold State.settle
  split <;> rfl

/-- A settlement changes `enabled` only. -/
theorem settle_eq (s : State) (i : Nat) (ne er cand : Word) :
    (s.settle i ne er cand).1 = s ∨ (s.settle i ne er cand).1 = s.disable i := by
  rw [settle_fst]; split <;> simp

/-- Everything a service can do, said once. -/
theorem service_effect {s t : State} {i : Nat} {cand cand' : Word} (h : s.service i cand = some (t, cand')) :
    ServiceEffect i s t := by
  obtain ⟨u, ne', hu, ht⟩ := service_some h
  have e := edge_effect hu
  have ht1 : t = _ := congrArg Prod.fst ht
  have hen := congrArg State.enabled (ht1.trans (settle_fst u i ne' _ cand))
  generalize hc : (s.chan i).prepared s.counter = c at e hen hu
  have hmode : (u.chan i).mode = ((s.setChan i c).chan i).mode := by
    obtain ⟨k, hk | hk⟩ := e.record <;> rw [hk]
  have hd : ((s.setChan i c).chan i).duty = (s.chan i).duty := by
    rw [chan_setChan]; split
    · rw [← hc]; simp
    · rfl
  have hp : ((s.setChan i c).chan i).period = (s.chan i).period := by
    rw [chan_setChan]; split
    · rw [← hc]; simp
    · rfl
  have keep : ∀ (β : Type) (f : State → β), (∀ v : State, f (v.disable i) = f v) → f t = f u := by
    intro β f hf
    rw [ht1]
    rcases settle_eq u i ne' _ cand with hq | hq
    · rw [hq]
    · rw [hq, hf]
  constructor
  · exact (keep _ _ fun _ => rfl).trans e.cfg
  · exact (keep _ _ fun _ => rfl).trans e.counter
  · exact (keep _ _ fun _ => rfl).trans e.lapse
  · exact (keep _ _ fun _ => rfl).trans e.toEnable
  · exact (keep _ _ fun _ => rfl).trans e.toDisable
  · exact (keep _ _ fun _ => rfl).trans e.firstActivePin
  · exact (keep _ _ fun _ => rfl).trans e.lastActivePin
  · exact (keep _ _ fun _ => rfl).trans e.timerRunning
  · exact (keep _ _ fun _ => rfl).trans e.timerArmed
  · exact (keep _ _ fun _ => rfl).trans e.auxValid
  · exact (keep _ _ fun _ => rfl).trans e.auxFn
  · exact (keep _ _ fun _ => rfl).trans e.auxAnswers
  · exact (keep _ _ fun _ => rfl).trans e.ports
  · exact (keep _ _ fun _ => rfl).trans e.active
  · intro j hj
    exact (keep _ (·.chan j) fun _ => rfl).trans ((e.others j hj).trans (chan_setChan_of_ne s hj c))
  · intro hi
    have hci : (s.setChan i c).chan i = c := chan_setChan_self s hi c
    have ht : t.chan i = u.chan i := keep _ (·.chan i) fun _ => rfl
    rw [hc, ht]
    obtain ⟨k, hk | hk⟩ := e.record
    · exact ⟨k, by rw [hk, hp, hci]⟩
    · exact ⟨0, by rw [hk, hci]; simp⟩
  · intro j hj; exact (keep _ (fun v => maskBit v.level j) fun _ => rfl).trans (e.level j hj)
  · intro j hj; exact (keep _ (·.latch j) fun _ => rfl).trans (e.latch j hj)
  · intro h1 h2
    exact (keep _ (·.latch i) fun _ => rfl).trans (e.notCleared (by rw [hd, hp]; exact h1) h2)
  · intro h1 h2
    exact (keep _ (·.latch i) fun _ => rfl).trans (e.notSet (by rw [hd]; exact h1) h2)
  · rw [hc, hen, hmode]
    have hue : u.enabled = s.enabled := e.enabled
    by_cases hx : ((s.setChan i c).chan i).mode = .expires
    · have hi : i < 17 := by
        by_contra hge
        rw [chan_of_ge _ (not_lt.mp hge)] at hx
        exact absurd hx (by decide)
      have hcm : c.mode = .expires := by rwa [chan_setChan_self s hi c] at hx
      simp only [hx, true_and, Channel.expiryRemaining, hcm, if_true]
      split <;> simp [hue]
    · simp only [hx, false_and, if_false]
      exact hue

end Sys2Proof.Machine
end

