-- ==== Sys2Proof/Laws/Pass.lean ====
section
/-! SUPPORT. What a pass can do: inductions over its services packaged once, and its steps taken apart. -/

namespace Sys2Proof.Machine

/-- What every service of an enabled channel keeps, a sweep keeps. -/
theorem sweepOver_keeps (P : State → Prop)
    (hserv : ∀ i s t c c', maskBit s.enabled i = true → P s → s.service i c = some (t, c') → P t) :
    ∀ (l : List Nat) (s t : State) (c c' : Word), s.sweepOver l c = some (t, c') → P s → P t
  | [], s, t, c, c', h, hs => by
    simp only [State.sweepOver, Option.some.injEq, Prod.mk.injEq] at h
    rw [← h.1]; exact hs
  | i :: rest, s, t, c, c', h, hs => by
    rw [State.sweepOver] at h
    split at h
    · rename_i hen
      split at h
      · exact absurd h (by simp)
      · rename_i u c'' hu
        exact sweepOver_keeps P hserv rest u t c'' c' h (hserv i s u c c'' hen hs hu)
    · exact sweepOver_keeps P hserv rest s t c c' h hs

/-- What every service and every sample at the end of a sweep keeps, the sweeps of a pass keep. -/
theorem sweeps_keeps (P : State → Prop)
    (hserv : ∀ i s t c c', maskBit s.enabled i = true → P s → s.service i c = some (t, c') → P t)
    (hsample : ∀ s, P s → P s.sampleAfterSweep) (entry : Word) :
    ∀ (fuel : Nat) (s t : State) (c : Word), State.sweeps entry fuel s = some (t, c) → P s → P t := by
  intro fuel
  induction fuel with
  | zero => intro s t c h; exact absurd h (by simp [State.sweeps])
  | succ fuel ih =>
    intro s t c h hs
    rw [State.sweeps] at h
    split at h
    · exact absurd h (by simp)
    · rename_i u c' hu
      have hp : P u := sweepOver_keeps P hserv _ s u _ c' hu hs
      split at h
      · exact ih _ t c h (hsample u hp)
      · simp only [Option.some.injEq, Prod.mk.injEq] at h
        rw [← h.1]; exact hsample u hp

/-- Step 2 of a pass keeps what every service and sample keeps. -/
theorem serviceLoop_keeps (P : State → Prop)
    (hserv : ∀ i s t c c', maskBit s.enabled i = true → P s → s.service i c = some (t, c') → P t)
    (hsample : ∀ s, P s → P s.sampleAfterSweep) {entry : Word} {s t : State} {c : Word}
    (h : s.serviceLoop entry = some (t, c)) (hs : P s) : P t := by
  unfold State.serviceLoop at h
  split at h
  · simp only [Option.some.injEq, Prod.mk.injEq] at h
    rw [← h.1]; exact hs
  · exact sweeps_keeps P hserv hsample entry sweepFuel s t c h hs

/-- What no service and no sample changes is after the sweeps as it was. -/
theorem serviceLoop_field {β : Type} (f : State → β)
    (hserv : ∀ i s t c c', s.service i c = some (t, c') → f t = f s) (hsample : ∀ s : State, f s.sampleAfterSweep = f s)
    {entry : Word} {s t : State} {c : Word} (h : s.serviceLoop entry = some (t, c)) : f t = f s :=
  serviceLoop_keeps (fun v => f v = f s) (fun i u v a b _ hu hv => (hserv i u v a b hv).trans hu)
    (fun v hv => (hsample v).trans hv) h rfl

/-- A pass that completes: its sweeps, the callback, the re-arm. -/
theorem pass_some {s t : State} (h : s.pass = some t) :
    ∃ u cand, s.beforeSweeps.serviceLoop s.counter = some (u, cand) ∧
      t = (u.consultCallback cand).1.rearm (u.consultCallback cand).2 := by
  unfold State.pass at h
  simp only [Option.map_eq_some_iff] at h
  obtain ⟨⟨u, cand⟩, hu, ht⟩ := h
  exact ⟨u, cand, hu, ht.symm⟩

/-- A pass completes iff its sweeps do. -/
theorem pass_eq_none_iff (s : State) : s.pass = none ↔ s.beforeSweeps.serviceLoop s.counter = none := by
  unfold State.pass
  simp only [Option.map_eq_none_iff]

/-- What the request masks become (R122), pending or not. -/
theorem applyRequests_enabled (s : State) :
    s.applyRequests.enabled = (s.enabled &&& ~~~s.toDisable) ||| s.toEnable := by
  unfold State.applyRequests
  split
  · simp
  · rename_i h
    simp only [State.requested, bne_iff_ne, ne_eq, Decidable.not_not] at h
    apply eq_of_maskBit
    intro i hi
    have := congrArg (fun w => maskBit w i) h
    simp only [maskBit, BitVec.getLsbD_or] at this
    have h0 : BitVec.getLsbD (0 : Word) i = false := by simp
    rw [h0] at this
    rw [maskBit_fold]
    simp only [Bool.or_eq_false_iff] at this
    simp [maskBit, this.1, this.2]

/-- What `level` becomes (R122). -/
theorem applyRequests_level (s : State) : s.applyRequests.level = s.level &&& ~~~s.toEnable := by
  unfold State.applyRequests
  split
  · simp
  · rename_i h
    simp only [State.requested, bne_iff_ne, ne_eq, Decidable.not_not] at h
    apply eq_of_maskBit
    intro i hi
    have := congrArg (fun w => maskBit w i) h
    simp only [maskBit, BitVec.getLsbD_or] at this
    have h0 : BitVec.getLsbD (0 : Word) i = false := by simp
    rw [h0] at this
    simp only [Bool.or_eq_false_iff] at this
    rw [maskBit_and_not]
    simp [maskBit, this.1]

/-- Both request masks are 0 after step 1 (R122). -/
theorem applyRequests_requests (s : State) : s.applyRequests.toEnable = 0 ∧ s.applyRequests.toDisable = 0 := by
  unfold State.applyRequests
  split
  · simp
  · rename_i h
    simp only [State.requested, bne_iff_ne, ne_eq, Decidable.not_not] at h
    constructor <;>
    · apply eq_of_maskBit
      intro i hi
      have := congrArg (fun w => maskBit w i) h
      simp only [maskBit, BitVec.getLsbD_or] at this
      have h0 : BitVec.getLsbD (0 : Word) i = false := by simp
      rw [h0] at this
      simp only [Bool.or_eq_false_iff] at this
      simp [maskBit, this.1, this.2]

/-- Step 1 writes the masks and the scan range only. -/
theorem applyRequests_keeps {β : Type} (f : State → β) (hf : ∀ s : State, f s.apply = f s) (s : State) :
    f s.applyRequests = f s := by
  unfold State.applyRequests
  split
  · exact hf s
  · rfl

/-- The sweeps of a pass begin with the records as they were (R122). -/
theorem beforeSweeps_chan (s : State) (i : Nat) : s.beforeSweeps.chan i = s.chan i := by
  apply chan_eq_of_channels
  simp only [State.beforeSweeps, State.sampleBeforeSweeps_eq, State.sampleWithin_channels]
  exact applyRequests_keeps (·.channels) (fun u => State.apply_channels u) _

/-- The sweeps of a pass begin with the requests folded in (R122). -/
theorem beforeSweeps_enabled (s : State) : s.beforeSweeps.enabled = (s.enabled &&& ~~~s.toDisable) ||| s.toEnable := by
  simp only [State.beforeSweeps, State.sampleBeforeSweeps_eq, State.sampleWithin_enabled]
  exact applyRequests_enabled _

/-- The sweeps of a pass begin `lapse` cycles after its entry, and leave a cycle for the sweep (R40, R124). -/
theorem beforeSweeps_time (s : State) :
    s.beforeSweeps.counter = s.counter + BitVec.ofNat 32 s.beforeSweeps.lapse ∧ s.beforeSweeps.lapse ≤ spanLimit ∧
      (s.beforeSweeps.enabled ≠ 0 → s.beforeSweeps.lapse < spanLimit) := by
  have e1 : s.enterPass.applyRequests.counter = s.counter :=
    applyRequests_keeps (·.counter) (fun u => State.apply_counter u) _
  have e2 : s.enterPass.applyRequests.lapse = 0 := applyRequests_keeps (·.lapse) (fun u => State.apply_lapse u) _
  have h1 := sampleWithin_counter_of_anchor s.enterPass.applyRequests s.counter 0
    (if s.enterPass.applyRequests.enabled = 0 then spanLimit else spanLimit - 1) (by rw [e1, e2]; simp)
  have h2 := nextLapse_le s.enterPass.applyRequests (least := 0)
    (ceiling := if s.enterPass.applyRequests.enabled = 0 then spanLimit else spanLimit - 1) (by omega)
  have hs : spanLimit = 2147483647 := rfl
  refine ⟨h1, ?_, fun h => ?_⟩
  · change s.enterPass.applyRequests.nextLapse _ _ ≤ _
    exact h2.trans (by split <;> omega)
  · change s.enterPass.applyRequests.nextLapse _ _ < _
    have hne : ¬ s.enterPass.applyRequests.enabled = 0 := by simpa [State.beforeSweeps] using h
    rw [if_neg hne] at h2 ⊢
    omega

/-- What does not depend on the fields a callback's answer and a sample change is as it was. -/
theorem consultCallback_keeps {β : Type} (f : State → β) (hf : ∀ s : State, f s.auxAnswerTaken.sample = f s)
    (s : State) (cand : Word) : f (s.consultCallback cand).1 = f s := by
  unfold State.consultCallback
  split
  · exact hf s
  · rfl

end Sys2Proof.Machine
end

