-- ==== Sys2Proof/Laws/Exec.lean ====
section
/-! SUPPORT. What `exec` and `step` can do, said once. -/

namespace Sys2Proof.Machine

/-- The command an idle port goes on to when it accepts an instruction (R100). -/
def Command.first : Instr → Command
  | .start pin duty period run => .start pin duty period run .s1
  | .stop pin => .stop pin .p1
  | .setaux fn => .setaux fn .a1
  | .clraux => .clraux .b1

/-- The micro-step a command in progress makes next. -/
def Command.microStep : Command → State → State
  | .start pin duty period run k, s => startMicroStep pin duty period run k s
  | .stop pin k, s => stopMicroStep pin k s
  | .setaux fn k, s => setauxMicroStep fn k s
  | .clraux k, s => clrauxMicroStep k s

@[simp] theorem instr_first (i : Instr) : (Command.first i).instr = i := by cases i <;> rfl

theorem idle_iff (s : State) : s.idle ↔ ∃ p, s.activePort = some p ∧ p.cmd = none := by
  simp [State.idle, State.activeCmd]

theorem runs_iff (s : State) (c : Command) : s.runs c ↔ ∃ p, s.activePort = some p ∧ p.cmd = some c := by
  simp [State.runs, State.activeCmd]

/-- An idle port latches the instruction (R100). -/
theorem exec_of_idle {s : State} (h : s.idle) (i : Instr) : exec i s = .next (s.goto (Command.first i)) := by
  obtain ⟨p, hp, hc⟩ := (idle_iff s).mp h
  cases i <;> simp [exec, execStart, execStop, execSetaux, execClraux, hp, hc, Command.first]

/-- A port that runs a command makes its next micro-step (R100). -/
theorem exec_of_runs {s : State} {c : Command} (h : s.runs c) : exec c.instr s = .next (c.microStep s) := by
  obtain ⟨p, hp, hc⟩ := (runs_iff s c).mp h
  cases c <;> simp [exec, execStart, execStop, execSetaux, execClraux, Command.instr, Command.microStep, hp, hc]

/-- Everything `exec` can do when it answers a next state. -/
theorem exec_next_cases {i : Instr} {s t : State} (h : exec i s = .next t) :
    (s.idle ∧ t = s.goto (Command.first i)) ∨ ∃ c, s.runs c ∧ c.instr = i ∧ t = c.microStep s := by
  cases hp : s.activePort with
  | none => cases i <;> simp [exec, execStart, execStop, execSetaux, execClraux, hp] at h
  | some p =>
    cases hc : p.cmd with
    | none =>
      have hi : s.idle := (idle_iff s).mpr ⟨p, hp, hc⟩
      rw [exec_of_idle hi] at h
      exact .inl ⟨hi, by simpa using h.symm⟩
    | some c =>
      have hr : s.runs c := (runs_iff s c).mpr ⟨p, hp, hc⟩
      by_cases hci : c.instr = i
      · subst hci
        rw [exec_of_runs hr] at h
        exact .inr ⟨c, hr, rfl, by simpa using h.symm⟩
      · exfalso
        cases i <;> cases c <;> simp only [exec, execStart, execStop, execSetaux, execClraux, hp, hc] at h <;>
          first
            | (simp at h; done)
            | (split at h <;> simp_all [Command.instr])
            | simp_all [Command.instr]

/-- The active port's command after it goes on to `c`. -/
theorem runs_goto {s : State} (h : s.activePort ≠ none) (c : Command) : (s.goto c).runs c := by
  obtain ⟨p, hp⟩ := Option.ne_none_iff_exists'.mp h
  refine (runs_iff _ _).mpr ⟨{ p with cmd := some c }, ?_, rfl⟩
  unfold State.activePort at hp ⊢
  rw [State.goto_eq, State.onPort_active, ports_onPort_active, hp]; rfl

/-- The bytes of a frame are read back as that frame (R74). -/
theorem frameOfBytes_frameBytes (f : Frame) : frameOfBytes (frameBytes f) = some f := by
  have hw : ∀ w : Word, wordOfBytes (w.extractLsb' 0 8) (w.extractLsb' 8 8) (w.extractLsb' 16 8)
      (w.extractLsb' 24 8) = w := by
    intro w
    apply BitVec.eq_of_getLsbD_eq
    intro i hi
    simp only [wordOfBytes, BitVec.getLsbD_append, BitVec.getLsbD_extractLsb']
    have : i < 8 ∨ (8 ≤ i ∧ i < 16) ∨ (16 ≤ i ∧ i < 24) ∨ 24 ≤ i := by omega
    rcases this with h | ⟨h, h'⟩ | ⟨h, h'⟩ | h
    · simp [h]
    · have a1 : ¬ i < 8 := by omega
      have a2 : i - 8 < 8 := by omega
      simp [a1, a2]; congr 1; omega
    · have a1 : ¬ i < 8 := by omega
      have a2 : ¬ i - 8 < 8 := by omega
      have a3 : i - 8 - 8 < 8 := by omega
      simp [a1, a2, a3]; congr 1; omega
    · have a1 : ¬ i < 8 := by omega
      have a2 : ¬ i - 8 < 8 := by omega
      have a3 : ¬ i - 8 - 8 < 8 := by omega
      have a4 : i - 8 - 8 - 8 < 8 := by omega
      simp [a1, a2, a3, a4]; congr 1; omega
  cases f
  simp [frameBytes, wordBytes, frameOfBytes, hw]

theorem decodeBytes_frameBytes (f : Frame) : decodeBytes (frameBytes f) = decodeFrame f := by
  simp [decodeBytes, frameOfBytes_frameBytes]

/-- Everything `step` can do when it answers a next state. -/
theorem step_next_cases {s t : State} (h : step s = .next t) :
    (∃ p, s.turn = .port p ∧ { s.turnTaken with active := p }.portStep = .next t) ∨
    (s.turn = .dispatch ∧ s.turnTaken.dispatchStep = .next t) := by
  unfold step State.takeTurn at h
  cases ht : s.turn with
  | port p => rw [ht] at h; exact .inl ⟨p, rfl, h⟩
  | dispatch => rw [ht] at h; exact .inr ⟨rfl, h⟩

/-- Everything a port's step can do: nothing, a step of `exec`, or the end of an illegal frame. -/
theorem portStep_next_cases {s t : State} (h : s.portStep = .next t) :
    t = s ∨ (∃ c, s.runs c ∧ exec c.instr s = .next t) ∨
    (∃ i, s.frameTaken.idle ∧ exec i s.frameTaken = .next t) ∨ t = s.frameTaken.finish false := by
  unfold State.portStep at h
  split at h
  · exact .inl (by simpa using h.symm)
  · rename_i p hp
    split at h
    · rename_i c hc
      exact .inr (.inl ⟨c, (runs_iff s c).mpr ⟨p, hp, hc⟩, h⟩)
    · rename_i hc
      split at h
      · unfold State.acceptFrame at h
        split at h
        · rename_i i _
          refine .inr (.inr (.inl ⟨i, ?_, h⟩))
          refine (idle_iff _).mpr ⟨{ p with inbox := p.inbox.tail }, ?_, hc⟩
          unfold State.activePort at hp ⊢
          rw [State.frameTaken_eq, State.onPort_active, ports_onPort_active, hp]; rfl
        · exact .inr (.inr (.inr (by simpa using h.symm)))
      · exact .inl (by simpa using h.symm)

/-- Everything the dispatch engine's step can do: nothing, a sample, or a pass (R154). -/
theorem dispatchStep_next_cases {s t : State} (h : s.dispatchStep = .next t) :
    t = s ∨ t = s.sample ∨ (s.sample.due = true ∧ s.sample.pass = some t) := by
  unfold State.dispatchStep at h
  split at h
  · split at h
    · rename_i hd
      split at h
      · rename_i u hu
        refine .inr (.inr ⟨hd, ?_⟩)
        have : u = t := by simpa using h
        rw [← this]; exact hu
      · exact absurd h (by simp)
    · exact .inr (.inl (by simpa using h.symm))
  · exact .inl (by simpa using h.symm)

end Sys2Proof.Machine
end

