-- ==== Sys2Proof/Laws/PerInstr.lean ====
section
/-! SUPPORT. Statements for all instructions, one lemma per constructor. -/

namespace Sys2Proof.Laws

/-- The command word of the encoding matches its row of the opcode map (R82), and the frame is legal (R83). -/
def EncodingMatchesRow.Statement (i : Instr) : Prop :=
  (encode i).w0 &&& rowMask i = rowMatch i ∧ (encode i).legal = true

theorem start_word (pin : Pin) :
    commandWord 1#8 pin &&& 0xFFFFFF00#32 = 0x01000000#32 ∧
      (commandWord 1#8 pin).extractLsb' 24 8 = 1#8 ∧ (commandWord 1#8 pin).extractLsb' 8 16 = 0#16 := by
  revert pin; decide

theorem stop_word (pin : Pin) :
    commandWord 2#8 pin &&& 0xFFFFFF00#32 = 0x02000000#32 ∧
      (commandWord 2#8 pin).extractLsb' 24 8 = 2#8 ∧ (commandWord 2#8 pin).extractLsb' 8 16 = 0#16 := by
  revert pin; decide

theorem EncodingMatchesRow.start (pin : Pin) (duty period run : Word) :
    EncodingMatchesRow.Statement (.start pin duty period run) := by
  obtain ⟨h1, h2, h3⟩ := start_word pin
  refine ⟨by simpa [encode, rowMask, rowMatch] using h1, ?_⟩
  simp [encode, Frame.legal, Frame.opKnown, Frame.rsvZero, Frame.pinOk, Frame.w1Ok, Frame.w2Ok, Frame.w3Ok, Frame.op,
    Frame.rsv, h2, h3]

theorem EncodingMatchesRow.stop (pin : Pin) : EncodingMatchesRow.Statement (.stop pin) := by
  obtain ⟨h1, h2, h3⟩ := stop_word pin
  refine ⟨by simpa [encode, rowMask, rowMatch] using h1, ?_⟩
  simp [encode, Frame.legal, Frame.opKnown, Frame.rsvZero, Frame.pinOk, Frame.w1Ok, Frame.w2Ok, Frame.w3Ok, Frame.op,
    Frame.rsv, h2, h3]

theorem setaux_word :
    commandWord 3#8 0#8 &&& 0xFFFFFFFF#32 = 0x03000000#32 ∧ (commandWord 3#8 0#8).extractLsb' 24 8 = 3#8 ∧
      (commandWord 3#8 0#8).extractLsb' 8 16 = 0#16 ∧ (commandWord 3#8 0#8).extractLsb' 0 8 = 0#8 := by decide

theorem clraux_word :
    commandWord 4#8 0#8 &&& 0xFFFFFFFF#32 = 0x04000000#32 ∧ (commandWord 4#8 0#8).extractLsb' 24 8 = 4#8 ∧
      (commandWord 4#8 0#8).extractLsb' 8 16 = 0#16 ∧ (commandWord 4#8 0#8).extractLsb' 0 8 = 0#8 := by decide

theorem EncodingMatchesRow.setaux (fn : Word) : EncodingMatchesRow.Statement (.setaux fn) := by
  obtain ⟨h1, h2, h3, h4⟩ := setaux_word
  refine ⟨h1, ?_⟩
  simp [encode, Frame.legal, Frame.opKnown, Frame.rsvZero, Frame.pinOk, Frame.w1Ok, Frame.w2Ok, Frame.w3Ok, Frame.op,
    Frame.rsv, Frame.pin, h2, h3, h4]

theorem EncodingMatchesRow.clraux : EncodingMatchesRow.Statement .clraux := by
  obtain ⟨h1, h2, h3, h4⟩ := clraux_word
  refine ⟨h1, ?_⟩
  simp [encode, Frame.legal, Frame.opKnown, Frame.rsvZero, Frame.pinOk, Frame.w1Ok, Frame.w2Ok, Frame.w3Ok, Frame.op,
    Frame.rsv, Frame.pin, h2, h3, h4]

end Sys2Proof.Laws
end

