-- ==== Sys2Proof/Tests/Slice0.lean ====
section
/-! SUPPORT. Tests and witnesses. Expected values come from spec/95_test_vectors.md, whose vector is named with each test, or
are worked out by hand from the rule named. A theorem `witness_<Statement>` shows a state and operands that meet the
hypotheses of the statement `Obligations.<Statement>` together, for each of its clauses. -/

namespace Sys2Proof.Tests

open Sys2Proof Sys2Proof.Machine

/-! ### States -/

/-- Configuration TC-A of the vectors, two ports. -/
def tcA : Cfg := defaultCfg 2 1 false

/-- Configuration TC-B of the vectors. -/
def tcB : Cfg where
  nPorts := 2
  cycPerUs := 160
  clockFast := true
  tKick := 320
  tBudget := 2240
  tMaxirq := 160000000
  tComp := 100
  tMinArm := 200
  tImminent := 301
  reservedPins := 0xFC0

/-- The reset state with configuration TC-A and the counter at 0. -/
def base : State := { State.reset with cfg := tcA, ports := [Port.reset, Port.reset], counter := 0 }

/-- Port 0 runs `c`, port 1 is idle, and port 0 moves next. -/
def running (c : Command) : State :=
  { base with ports := [{ inbox := [], cmd := some c, result := false }, Port.reset], turns := [.port 0] }

/-- Channel 5 enabled with the record `c`, at the sample `now`. -/
def live (c : Channel) (high : Bool) (now : Word) : State :=
  { base with
    channels := base.channels.setIfInBounds 5 c
    enabled := 0x20, level := if high then 0x20 else 0
    firstActivePin := 5, lastActivePin := 5
    timerRunning := true, timerArmed := true
    counter := now, timerRef := now
    turns := [.dispatch], elapsed := [0, 0, 1, 1, 1, 0] }

/-- The shape of the vectors: 500 of 1000 cycles. -/
def shape (phase expiry : Word) (m : Mode) : Channel := ⟨phase, 500, 1000, expiry, m⟩

/-- The state an outcome goes on to. -/
def after (o : Host.Outcome State Fault Refusal) : Option State :=
  match o with
  | .next t => some t
  | .fault _ => none
  | .refused _ => none

/-- What a service leaves of channel 5: record, level bit, enabled bit, latch, candidate. -/
def served (s : State) (i : Nat) : Option (Channel × Bool × Bool × Bool × Int) :=
  (s.service i 1000000).map fun r =>
    (r.1.chan i, maskBit r.1.level i, maskBit r.1.enabled i, r.1.latch i, signed r.2)

theorem after_some {o : Host.Outcome State Fault Refusal} {t : State} (h : after o = some t) : o = .next t := by
  unfold after at h
  split at h
  · simp only [Option.some.injEq] at h; rw [h]
  · exact absurd h (by simp)
  · exact absurd h (by simp)

theorem next_of_isSome {o : Host.Outcome State Fault Refusal} (h : (after o).isSome = true) : ∃ t, o = .next t := by
  obtain ⟨t, ht⟩ := Option.isSome_iff_exists.mp h
  exact ⟨t, after_some ht⟩

theorem some_of_isSome {α : Type} {o : Option α} (h : o.isSome = true) : ∃ t, o = some t :=
  Option.isSome_iff_exists.mp h

/-! ### Decoding (R81 to R83; vectors V-ENC) -/

/-- V-ENC-1. -/
theorem test_decode_start : decodeFrame ⟨0x01000005, 0x1F4, 0x3E8, 0⟩ = .ok (.start 5 500 1000 0) := rfl

/-- V-ENC-3: the three cycle operands keep their places. -/
theorem test_decode_start_run : decodeFrame ⟨0x01000004, 0x12C, 0x3E8, 0x9C4⟩ = .ok (.start 4 300 1000 2500) := rfl

/-- V-ENC-4. -/
theorem test_decode_stop : decodeFrame ⟨0x02000005, 0, 0, 0⟩ = .ok (.stop 5) := rfl

/-- V-ENC-5. -/
theorem test_decode_setaux : decodeFrame ⟨0x03000000, 0x4000A000, 0, 0⟩ = .ok (.setaux 0x4000A000) := rfl

/-- V-ENC-6. -/
theorem test_decode_clraux : decodeFrame ⟨0x04000000, 0, 0, 0⟩ = .ok .clraux := rfl

/-- V-ENC-1 as bytes (R74). -/
theorem test_decode_bytes :
    decodeBytes [0x05, 0, 0, 0x01, 0xF4, 0x01, 0, 0, 0xE8, 0x03, 0, 0, 0, 0, 0, 0] = .ok (.start 5 500 1000 0) := rfl

/-- V-ENC-1 as bytes (R74). -/
theorem test_encode_bytes :
    encodeBytes (.start 5 500 1000 0) = [0x05, 0, 0, 0x01, 0xF4, 0x01, 0, 0, 0xE8, 0x03, 0, 0, 0, 0, 0, 0] := by decide

/-- The opcode table's bits of each row, numbered as it numbers them; the operand words are 0. -/
theorem test_decode_table :
    decodeTableWord 32 0x01000010 = some (.start 16 0 0 0) ∧ decodeTableWord 32 0x02000005 = some (.stop 5) ∧
    decodeTableWord 32 0x03000000 = some (.setaux 0) ∧ decodeTableWord 32 0x04000000 = some .clraux ∧
    decodeTableWord 128 0x000001F401000005 = some (.start 5 500 0 0) := by decide

/-- V-ENC-10, V-ENC-14. -/
theorem test_refuse_op : decodeFrame ⟨0x05000000, 0, 0, 0⟩ = .error .unknownOp ∧
    decodeFrame ⟨0, 0, 0, 0⟩ = .error .unknownOp := ⟨rfl, rfl⟩

/-- V-ENC-11. -/
theorem test_refuse_rsv : decodeFrame ⟨0x01000105, 0x1F4, 0x3E8, 0⟩ = .error .reservedBits := rfl

/-- V-ENC-12. -/
theorem test_refuse_word : decodeFrame ⟨0x02000005, 1, 0, 0⟩ = .error .wordNotZero ∧
    decodeFrame ⟨0x03000000, 7, 0, 1⟩ = .error .wordNotZero ∧
    decodeFrame ⟨0x04000000, 0, 1, 0⟩ = .error .wordNotZero := ⟨rfl, rfl, rfl⟩

/-- V-ENC-13. -/
theorem test_refuse_pin : decodeFrame ⟨0x03000001, 0x4000A000, 0, 0⟩ = .error .pinNotZero := rfl

/-- R75: fifteen bytes are no frame. -/
theorem test_refuse_bytes : decodeBytes (List.replicate 15 0) = .error .notAWholeFrame := rfl

/-! ### Each check refuses an ill-formed term -/

/-- R83: one frame for each check of a frame. -/
theorem test_frame_checks :
    Frame.opKnown ⟨0x05000000, 0, 0, 0⟩ = false ∧ Frame.rsvZero ⟨0x01000105, 0, 0, 0⟩ = false ∧
    Frame.pinOk ⟨0x04000001, 0, 0, 0⟩ = false ∧ Frame.w1Ok ⟨0x02000005, 1, 0, 0⟩ = false ∧
    Frame.w2Ok ⟨0x03000000, 7, 1, 0⟩ = false ∧ Frame.w3Ok ⟨0x04000000, 0, 0, 1⟩ = false ∧
    Frame.legal ⟨0x01000105, 0, 0, 0⟩ = false ∧ Frame.legal ⟨0x01000005, 1, 2, 3⟩ = true := by decide

/-- R198: one operand for each bound. -/
theorem test_operand_checks :
    periodInBounds 0 = false ∧ periodInBounds 0x80000000 = false ∧ dutyInBounds 1500 1000 = false ∧
    runInBounds 0x80000000 = false ∧ (Instr.start 3 1500 1000 0).inBounds = false ∧
    (Instr.start 3 1000 1000 0x7FFFFFFF).inBounds = true := by decide

/-- R7 to R10: one configuration for each check. -/
theorem test_cfg_checks :
    Cfg.portsOk { tcA with nPorts := 0 } = false ∧ Cfg.rateOk { tcA with cycPerUs := 65536 } = false ∧
    Cfg.timesOk { tcA with tKick := 0x80000000 } = false ∧ Cfg.minArmOk { tcB with tMinArm := 1 } = false ∧
    Cfg.imminentOk { tcA with tImminent := 0 } = false ∧ Cfg.kickOk { tcB with tKick := 1 } = false ∧
    Cfg.maxirqOk { tcA with tMaxirq := 0x7FFFFFFF, tComp := 1 } = false ∧ Cfg.budgetOk { tcA with tBudget := 0 } = false ∧
    Cfg.reservedOk { tcA with reservedPins := 0x20000 } = false ∧ tcA.valid = true ∧ tcB.valid = true := by decide

/-! ### Operands (R13, R14) -/

/-- R13, R14, by hand. -/
theorem test_operands :
    signed 0x80000000 = -2147483648 ∧ signed 0x7FFFFFFF = 2147483647 ∧ minS 0xFFFFFFFF 1 = 0xFFFFFFFF ∧
    ctz 0x10024 = 2 ∧ msb 0x10024 = 16 ∧ clz 1 = 31 ∧ microsToCycles tcB 2 = 320 := by decide

/-! ### Commands, one step each -/

/-- The very next step from reset, with a frame placed, takes it: port 0 runs START from S1 (R100). -/
theorem test_fetch_from_reset :
    (after (step (State.reset.withFetchWord 32 0x01000005))).map (fun t => t.ports[0]?.map Port.cmd) =
      some (some (some (.start 5 0 0 0 .s1))) := by decide

/-- V-START-3, V-START-4: refused at S1 with `false`. -/
theorem test_start_refused :
    (after (exec (.start 5 0 0 0) (running (.start 5 0 0 0 .s1)))).map (fun t => t.ports[0]?) =
      some (some { inbox := [], cmd := none, result := false }) ∧
    (after (exec (.start 6 1 2 0) { running (.start 6 1 2 0 .s1) with cfg := tcB })).map State.activeCmd =
      some (some none) := by decide

/-- V-START-7: S9 with the timer running arms it with the kick and replaces the deadline. -/
theorem test_start_kick :
    (after (exec (.start 16 10 20 0) { running (.start 16 10 20 0 (.s9 true)) with
      timerRunning := true, timerLoad := 1000, counter := 300, elapsed := [0] })).map
      (fun (t : State) => (t.timerLoad, t.timerRef, t.timerArmed)) = some (2, 300, true) := by decide

/-- V-STOP-4: P4 sets the request bit. -/
theorem test_stop_request :
    (after (exec (.stop 5) (running (.stop 5 .p4)))).map State.toDisable = some 0x20 := by decide

/-- V-STOP-6: with a callback registered P9 does not stop the timer. -/
theorem test_stop_shutdown :
    (after (exec (.stop 5) { running (.stop 5 (.p9 0 true)) with timerRunning := true })).map State.timerRunning =
      some true ∧
    (after (exec (.stop 5) { running (.stop 5 (.p9 0 false)) with timerRunning := true })).map State.timerRunning =
      some false := by decide

/-- V-AUX-1: A4 starts the stopped timer. -/
theorem test_setaux_starts :
    (after (exec (.setaux 0x4000A000) { running (.setaux 0x4000A000 (.a4 false)) with
      cfg := defaultCfg 1 80 false, counter := 1000, elapsed := [0] })).map
      (fun (t : State) => (t.timerRunning, t.timerLoad, t.timerRef)) = some (true, 160, 1000) := by decide

/-- V-AUX-4: B3 leaves the timer alone while a channel is enabled. -/
theorem test_clraux_keeps :
    (after (exec .clraux { running (.clraux (.b3 0x20)) with timerRunning := true })).map State.timerRunning =
      some true := by decide

/-! ### The timer (V-TMR) -/

/-- V-TMR-2, V-TMR-5: half-rate reload. -/
theorem test_tarm :
    ({ base with cfg := tcB, counter := 2000, elapsed := [0] }.tarm 500).deadline = 2500 ∧
    ({ base with cfg := tcB }.tarm 501).timerLoad = 250 := by decide

/-- V-TMR-3: the deadline wraps. -/
theorem test_due :
    let s : State := { base with timerRunning := true, timerArmed := true, timerLoad := 0x200, timerRef := 0xFFFFFF00 }
    { s with counter := 0xFFFFFFFF }.due = false ∧ { s with counter := 0x100 }.due = true := by decide

/-! ### SERVICE (V-SVC) -/

/-- V-SVC-1, V-SVC-2. -/
theorem test_service_init :
    served (live (shape 77 0 .init) false 4000) 5 = some (shape 4000 0 .infinite, true, true, true, 1) ∧
    served (live (shape 77 3000 .init) false 4000) 5 = some (shape 4000 7000 .expires, true, true, true, 500) := by
  decide

/-- V-SVC-6a, V-SVC-6b: periods are skipped. -/
theorem test_service_drift :
    served (live (shape 0 0 .infinite) true 3700) 5 = some (shape 4000 0 .infinite, false, true, false, -3199) ∧
    served (live (shape 0 0 .infinite) true 3300) 5 = some (shape 3000 0 .infinite, false, true, false, -2799) := by
  decide

/-- V-SVC-9a, V-SVC-9b: an edge before the deadline is driven, one after it is not. -/
theorem test_service_expiry :
    served (live (shape 2000 2500 .expires) false 2500) 5 = some (shape 2000 2500 .expires, true, false, true, 0) ∧
    served (live (shape 2500 2495 .expires) false 2500) 5 = some (shape 2500 2495 .expires, false, false, false, 0) := by
  decide

/-- The latch of channel 5 is high. -/
def latched (s : State) : State := { s with gpo := 0x20 }

/-- V-SVC-5, V-SVC-7b: a falling edge from a latch that is high; the constant-high channel keeps its latch. -/
theorem test_service_falling :
    served (latched (live (shape 2000 0 .infinite) true 2500)) 5 =
      some (shape 3000 0 .infinite, false, true, false, 1) ∧
    served (latched (live ⟨1000, 1000, 1000, 0, .infinite⟩ true 2000)) 5 =
      some (⟨2000, 1000, 1000, 0, .infinite⟩, false, true, true, 0) := by
  decide

/-- Channel 16 of V-SVC-10b. -/
def high16 : State :=
  { base.setChan 16 ⟨50, 10, 20, 0, .infinite⟩ with enabled := 0x10000, level := 0x10000, gp16o := true, counter := 60 }

/-- V-SVC-10b. -/
theorem test_service_falling16 :
    served high16 16 = some (⟨70, 10, 20, 0, .infinite⟩, false, true, false, 1) := by decide

/-! ### A pass -/

/-- V-STOP-4: the pass that consumes the last channel's stop leaves level and makes no sweep. -/
theorem test_pass_stop :
    ({ live (shape 0 0 .infinite) true 102 with toDisable := 0x20, elapsed := [] ++ [0, 0] }.pass).map
      (fun (t : State) => (t.enabled, t.level, t.toDisable, t.timerLoad, t.timerRef)) = some (0, 0x20, 0, 1000000, 102) := by
  decide

/-- V-START-1: the first pass. -/
theorem test_pass_start :
    ({ base with
      channels := base.channels.setIfInBounds 5 (shape 77 0 .init), toEnable := 0x20
      timerRunning := true, timerArmed := true, elapsed := [0, 1, 1, 0] }.pass).map
      (fun (t : State) => (t.enabled, t.level, t.gpo, t.timerLoad, t.timerRef, t.chan 5)) =
      some (0x20, 0x20, 0x20, 499, 2, shape 0 0 .infinite) := by decide

/-- The callback `0xA0` is registered and answers `us`, no channel is enabled, a pass is entered at 501, and its answer takes
`late` cycles (section 2.9 of the vectors). -/
def called (us : Word) (late : Nat) : State :=
  { base with
    auxValid := true, auxFn := 0xA0, auxAnswers := [us, 7], timerRunning := true, timerArmed := true
    counter := 501, elapsed := [0, late, 0] }

/-- What a pass leaves of the timer: reload value and reference; and the answers it has not used. -/
def rearmed (s : State) : Option (Word × Word × List Word) := s.pass.map fun t => (t.timerLoad, t.timerRef, t.auxAnswers)

/-- V-AUXP-1 to V-AUXP-4: the callback is asked once, with no channel enabled, and the timer armed with what it leaves. -/
theorem test_pass_callback :
    rearmed (called 100 0) = some (100, 501, [7]) ∧ rearmed (called 0 0) = some (1, 501, [7]) ∧
    rearmed (called 2000000 0) = some (1000000, 501, [7]) ∧ rearmed (called 0x80000000 0) = some (1, 501, [7]) := by decide

/-- V-AUXP-5 within a pass: 80 cycles a microsecond, channel 5 high with its falling edge 500 cycles after the sweep's `now`; with a
fast clock the timer is given half of it (R137). -/
theorem test_pass_callback_late :
    let s : State := { live (shape 0 0 .infinite) true 0 with
      auxValid := true, auxAnswers := [3], elapsed := [0, 1, 40, 0] }
    rearmed { s with cfg := defaultCfg 2 80 false } = some (200, 41, []) ∧
    rearmed { s with cfg := { defaultCfg 2 80 false with clockFast := true, tMinArm := 2 } } = some (100, 41, []) := by decide +kernel

/-- What the sweeps leave of channel 5: phase, level bit; the sample after the last, and its candidate. -/
def swept (s : State) : Option (Word × Bool × Word × Int) :=
  (s.serviceLoop s.counter).map fun r => ((r.1.chan 5).phaseStart, maskBit r.1.level 5, r.1.counter, signed r.2)

/-- R134, by hand: the sweeps at 499 (edge a cycle ahead), 500 (edge) and 501 leave candidates 1, 1 and 499. -/
theorem test_sweeps : swept (live (shape 0 0 .infinite) true 499) = some (1000, false, 502, 499) := by decide +kernel

/-- The channel of V-LOOP-1, on pin 5. -/
def loop1 : State := { live ⟨0, 1, 2, 0, .init⟩ false 0 with elapsed := List.replicate 14 1 }

/-- V-LOOP-1: the budget of 14 cycles ends the sweeps. -/
theorem test_sweeps_budget : swept loop1 = some (14, false, 14, 1) := by decide +kernel

/-- V-REARM: compensation, minimum and halving, with TC-B. -/
theorem test_rearm :
    (rearmDelay tcB 500000).toNat = 499900 ∧ (rearmDelay tcB 299).toNat = 200 ∧ (rearmDelay tcA (-3)).toNat = 1 := by
  decide

/-- R136's example: the callback's delay is 240 - 40. -/
theorem test_callback_delay : auxDelay (defaultCfg 1 80 false) 3 1040 1000 = 200 := by decide

/-- notes/assumptions/9.md: a valid configuration and a candidate below `T_MAXIRQ` whose difference wraps, so that the delay is
above `T_MAXIRQ - T_COMP`. -/
theorem test_rearm_wraps :
    let c : Cfg := { tcA with tComp := 10 }
    c.valid = true ∧ slt 0x80000000 c.tMaxirq = true ∧ (rearmDelay c 0x80000000).toNat = 2147483638 := by decide

/-! ### Field numbers and the textual syntax (R49, R86, R87) -/

/-- R49: field 140 packs the scan range; 5 to 7 of a record are no fields. -/
theorem test_fields :
    (live (shape 0 0 .infinite) true 0).readField 140 = .ok 0x505 ∧
    (live (shape 0 0 .infinite) true 0).readField 44 = .ok 3 ∧
    (live (shape 0 0 .infinite) true 0).readField 45 = .error .noSuchField := ⟨rfl, rfl, rfl⟩

/-- R86, R87 (V-ENC-8, V-ENC-9). -/
theorem test_syntax :
    assemble "STARTF 5, 500, 0x3E8".toList = some (.start 5 500 1000 0) ∧
    assemble "HIGH 5, 1000".toList = some (.start 5 1000 1000 0) ∧
    assemble "StartWaveform(5, duty=500, period=1000, run=0)".toList = some (.start 5 500 1000 0) ∧
    assemble "SetAuxiliaryCallback(none)".toList = some .clraux ∧
    assembleLine "PASS @501".toList = some (.pass 501) := by decide

/-- notes/assumptions/17.md: names out of their places, and a comma with no number after it, make no command. -/
theorem test_syntax_refused :
    assemble "StartWaveform(5, period=1000, duty=500, run=0)".toList = none ∧ assemble "STOP 5,".toList = none := by
  decide

/-! ### Witnesses: decoding and the steps of a port -/

/-- A START frame waits before idle port 0, which moves next; port 1 has none. -/
def offered (f : Frame) : State :=
  { base with ports := [{ inbox := [f], cmd := none, result := false }, Port.reset], turns := [.port 0] }

theorem witness_DecodedBytesAreTheEncoding :
    decodeBytes [0x10, 0, 0, 0x02, 0, 0, 0, 0, 0, 0, 0, 0, 0, 0, 0, 0] = .ok (.stop 16) := rfl

theorem witness_StepRunsTheDecodedCommand :
    ((running (.stop 16 .p4)).turn = .port 0 ∧ ∃ q, (running (.stop 16 .p4)).ports[0]? = some q ∧
      q.cmd = some (.stop 16 .p4)) ∧
    ∃ q, (offered ⟨0x04000000, 0, 0, 0⟩).ports[0]? = some q ∧ (offered ⟨0x04000000, 0, 0, 0⟩).turn = .port 0 ∧
      q.cmd = none ∧ q.inbox = [⟨0x04000000, 0, 0, 0⟩] ∧
      decodeBytes (frameBytes ⟨0x04000000, 0, 0, 0⟩) = .ok .clraux :=
  ⟨⟨rfl, _, rfl, rfl⟩, _, rfl, rfl, rfl, rfl, rfl⟩

/-- The conditions under which R83 calls a frame illegal. -/
def illegal (f : Frame) : Bool :=
  f.w0 &&& 0xFFFFFF00#32 != 0x01000000#32 &&
  (f.w0 &&& 0xFFFFFF00#32 != 0x02000000#32 || f.w1 != 0 || f.w2 != 0 || f.w3 != 0) &&
  (f.w0 != 0x03000000#32 || f.w2 != 0 || f.w3 != 0) &&
  (f.w0 != 0x04000000#32 || f.w1 != 0 || f.w2 != 0 || f.w3 != 0)

/-- V-ENC-10 to V-ENC-14. -/
theorem witness_IllegalFrameCompletesWithFalse :
    [(⟨0x05000000, 0, 0, 0⟩ : Frame), ⟨0x01000105, 0x1F4, 0x3E8, 0⟩, ⟨0x02000005, 1, 0, 0⟩, ⟨0x03000001, 0x4000A000, 0, 0⟩,
      ⟨0, 0, 0, 0⟩].all illegal = true ∧
    (offered ⟨0, 0, 0, 0⟩).turn = .port 0 ∧
    (offered ⟨0, 0, 0, 0⟩).ports[0]? = some { inbox := [⟨0, 0, 0, 0⟩], cmd := none, result := false } :=
  ⟨by decide, rfl, rfl⟩

theorem witness_IdleMachineDoesNothing :
    (∀ p ∈ base.ports, p.cmd = none ∧ p.inbox = []) ∧ base.timerRunning = false := by
  refine ⟨?_, rfl⟩
  intro p hp
  simp only [base, List.mem_cons, List.not_mem_nil, or_false, or_self] at hp
  subst hp; exact ⟨rfl, rfl⟩

theorem witness_PortStepsAreIsolated :
    ∃ t, (running (.stop 16 .p4)).turn = .port 0 ∧ step (running (.stop 16 .p4)) = .next t ∧ 1 ≠ 0 := by
  obtain ⟨t, ht⟩ := next_of_isSome (o := step (running (.stop 16 .p4))) (by decide)
  exact ⟨t, rfl, ht, by decide⟩

/-! ### Witnesses: the commands -/

/-- Pins 17 and 255, a reserved pin of TC-B at either end, and a zero period. -/
theorem witness_StartRefusesWithoutSideEffects :
    base.idle ∧ 16 < (17 : Pin).toNat ∧ 16 < (255 : Pin).toNat ∧ ({ base with cfg := tcB } : State).idle ∧
    tcB.reservedPins.getLsbD (6 : Pin).toNat = true ∧ tcB.reservedPins.getLsbD (11 : Pin).toNat = true ∧
    (0 : Word) = 0 := ⟨rfl, by decide, by decide, rfl, by decide, by decide, rfl⟩

/-- Every clause's micro-step, on pins 16 and 17, with both values of the bits it reads. -/
theorem witness_StartMicroStepsComplete :
    let at16 (k : StartStep) : Prop := (running (.start 16 10 20 7 k)).runs (.start 16 10 20 7 k)
    base.idle ∧ at16 .s1 ∧ at16 .s2 ∧ at16 .s3 ∧ at16 .s4 ∧ at16 .s5 ∧ at16 .s6 ∧ at16 .s7 ∧ at16 .s8 ∧
    at16 (.s9 true) ∧ at16 (.s9 false) ∧ at16 .s10 ∧ at16 .s11 ∧ at16 .s12 ∧ at16 .s13 ∧ at16 .s14 ∧ at16 .s15 ∧
    (running (.start 17 10 20 7 .s1)).runs (.start 17 10 20 7 .s1) ∧ 16 < (17 : Pin).toNat ∧
    (running (.start 16 10 20 0 .s14)).runs (.start 16 10 20 0 .s14) ∧
    (running (.start 16 10 0 0 .s1)).runs (.start 16 10 0 0 .s1) ∧
    (16 : Pin).toNat ≤ 16 ∧ tcA.reservedPins.getLsbD (16 : Pin).toNat = false ∧ (20 : Word) ≠ 0 ∧ (7 : Word) ≠ 0 ∧
    base.enabled.getLsbD 16 = false ∧ base.toEnable.getLsbD 16 = false ∧
    ({ running (.start 16 10 20 7 .s4) with enabled := 0x10000 } : State).runs (.start 16 10 20 7 .s4) ∧
    ({ running (.start 16 10 20 7 .s10) with toEnable := 0x10000 } : State).runs (.start 16 10 20 7 .s10) ∧
    (0x10000 : Word).getLsbD (16 : Pin).toNat = true :=
  ⟨rfl, rfl, rfl, rfl, rfl, rfl, rfl, rfl, rfl, rfl, rfl, rfl, rfl, rfl, rfl, rfl, rfl, rfl, by decide, rfl, rfl,
    by decide, by decide, by decide, by decide, by decide, by decide, rfl, rfl, by decide⟩

theorem witness_StartEnablePathKicksAndHolds :
    base.idle ∧ (16 : Pin).toNat ≤ 16 ∧ base.cfg.reservedPins.getLsbD (16 : Pin).toNat = false ∧ (1 : Word) ≠ 0 ∧
    base.enabled.getLsbD (16 : Pin).toNat = false := ⟨rfl, by decide, by decide, by decide, by decide⟩

theorem witness_StartUpdatePathCompletesAtOnce :
    ({ base with enabled := 0x10000 } : State).idle ∧ (16 : Pin).toNat ≤ 16 ∧
    base.cfg.reservedPins.getLsbD (16 : Pin).toNat = false ∧ (1 : Word) ≠ 0 ∧
    (0x10000 : Word).getLsbD (16 : Pin).toNat = true := ⟨rfl, by decide, by decide, by decide, by decide⟩

theorem witness_StoppedTimerNeverLiftsTheHold :
    let s : State := { running (.start 16 10 20 7 .s10) with toEnable := 0x10000 }
    s.ports[0]? = some { inbox := [], cmd := some (.start 16 10 20 7 .s10), result := false } ∧
    s.toEnable.getLsbD (16 : Pin).toNat = true ∧ s.timerRunning = false ∧ s.turn = .port 0 ∧
    ({ s with turns := [.dispatch] } : State).turn = .dispatch := ⟨rfl, by decide, rfl, rfl, rfl⟩

theorem witness_StopRefusesWithoutSideEffects :
    base.idle ∧ 16 < (17 : Pin).toNat ∧ (16 : Pin).toNat ≤ 16 ∧ base.timerRunning = false ∧
    ({ base with timerRunning := true } : State).idle ∧ base.enabled.getLsbD (16 : Pin).toNat = false :=
  ⟨rfl, by decide, by decide, rfl, rfl, by decide⟩

theorem witness_StopMicroStepsComplete :
    let at16 (k : StopStep) : Prop := (running (.stop 16 k)).runs (.stop 16 k)
    base.idle ∧ at16 .p1 ∧ at16 .p2 ∧ at16 .p3 ∧ at16 .p4 ∧ at16 .p5 ∧ at16 .p6 ∧ at16 .p7 ∧ at16 (.p8 0) ∧
    at16 (.p8 0x20) ∧ at16 (.p9 0 false) ∧ at16 (.p9 0 true) ∧ at16 (.p9 0x20 false) ∧ at16 .p10 ∧
    (running (.stop 17 .p1)).runs (.stop 17 .p1) ∧ 16 < (17 : Pin).toNat ∧ (16 : Pin).toNat ≤ 16 ∧
    base.timerRunning = false ∧ ({ running (.stop 16 .p2) with timerRunning := true } : State).runs (.stop 16 .p2) ∧
    ({ running (.stop 16 .p3) with enabled := 0x10000 } : State).runs (.stop 16 .p3) ∧
    ({ running (.stop 16 .p6) with toDisable := 0x10000 } : State).runs (.stop 16 .p6) ∧
    (0x10000 : Word).getLsbD (16 : Pin).toNat = true ∧ base.toDisable.getLsbD (16 : Pin).toNat = false ∧
    base.enabled.getLsbD (16 : Pin).toNat = false :=
  ⟨rfl, rfl, rfl, rfl, rfl, rfl, rfl, rfl, rfl, rfl, rfl, rfl, rfl, rfl, rfl, by decide, by decide, rfl, rfl, rfl, rfl,
    by decide, by decide, by decide⟩

theorem witness_StopRequestsKicksAndHolds :
    let s : State := { base with timerRunning := true, enabled := 0x10000 }
    s.idle ∧ (16 : Pin).toNat ≤ 16 ∧ s.timerRunning = true ∧ s.enabled.getLsbD (16 : Pin).toNat = true :=
  ⟨rfl, by decide, rfl, by decide⟩

theorem witness_StopShutsTheIdleTimerDown :
    (running (.stop 16 .p6)).runs (.stop 16 .p6) ∧
    (running (.stop 16 .p6)).toDisable.getLsbD (16 : Pin).toNat = false := ⟨rfl, by decide⟩

theorem witness_SetauxMicroStepsComplete :
    let atStep (k : SetauxStep) : Prop := (running (.setaux 0xA0 k)).runs (.setaux 0xA0 k)
    base.idle ∧ atStep .a1 ∧ atStep .a2 ∧ atStep .a3 ∧ atStep (.a4 true) ∧ atStep (.a4 false) ∧ atStep .a5 :=
  ⟨rfl, rfl, rfl, rfl, rfl, rfl, rfl⟩

theorem witness_SetauxRegistersAndStartsTheTimer :
    base.idle ∧ base.timerRunning = false ∧ ({ base with timerRunning := true } : State).idle := ⟨rfl, rfl, rfl⟩

theorem witness_ClrauxMicroStepsComplete :
    let atStep (k : ClrauxStep) : Prop := (running (.clraux k)).runs (.clraux k)
    base.idle ∧ atStep .b1 ∧ atStep .b2 ∧ atStep (.b3 0) ∧ atStep (.b3 0x10000) ∧ (0x10000 : Word) ≠ 0 ∧ atStep .b4 :=
  ⟨rfl, rfl, rfl, rfl, rfl, by decide, rfl⟩

theorem witness_ClrauxStopsTheIdleTimer : base.idle ∧ ({ base with enabled := 0x10000 } : State).idle := ⟨rfl, rfl⟩

theorem witness_CommandsNeverWriteEngineState :
    ∃ t, exec (.start 16 10 20 7) (running (.start 16 10 20 7 .s7)) = .next t := next_of_isSome (by decide)

theorem witness_CommandsWriteOnlyTheirFields :
    (∃ t, exec (.start 16 10 20 7) (running (.start 16 10 20 7 .s6)) = .next t) ∧
    (∃ t, exec (.stop 16) (running (.stop 16 .p4)) = .next t) ∧
    (∃ t, exec (.setaux 0xA0) (running (.setaux 0xA0 .a1)) = .next t) ∧
    (∃ t, exec .clraux (running (.clraux .b1)) = .next t) ∧ 15 ≠ (16 : Pin).toNat :=
  ⟨next_of_isSome (by decide), next_of_isSome (by decide), next_of_isSome (by decide), next_of_isSome (by decide),
    by decide⟩

theorem witness_CommandsNeverLoseARequest :
    let s : State := { running (.start 16 10 20 7 .s7) with toEnable := 0x8, toDisable := 0x8 }
    (∃ t, exec (.start 16 10 20 7) s = .next t) ∧ maskBit s.toEnable 3 = true ∧ maskBit s.toDisable 3 = true :=
  ⟨next_of_isSome (by decide), by decide, by decide⟩

theorem witness_ConfigurationIsConstant : ∃ t, step (running (.start 16 10 20 7 .s7)) = .next t :=
  next_of_isSome (by decide)

/-! ### Witnesses: the counter and the timer -/

theorem witness_SamplesAdvanceWithinTheirBounds :
    base.lapse < spanLimit ∧ base.enabled = 0 ∧
    ({ base with lapse := 2147483646, enabled := 0x10000 } : State).lapse < spanLimit ∧ (0x10000 : Word) ≠ 0 := by decide

theorem witness_TimerDriverWritesItsRegisters : (0x7FFFFFFF : Word).toNat < 2 ^ 31 ∧ (0 : Word).toNat < 2 ^ 31 := by
  decide

/-- Stopped, disarmed, one cycle early, exactly due with a pass that completes. -/
theorem witness_PassIsEnteredWhenTheTimerIsDue :
    let s : State := live (shape 0 0 .infinite) true 100
    let early : State := { s with timerLoad := 1 }
    s.turn = .dispatch ∧ ({ s with timerRunning := false } : State).turn = .dispatch ∧
    early.timerRunning = true ∧ early.timerArmed = true ∧
    signed (early.turnTaken.sample.counter - (early.timerRef + early.timerLoad * 1)) = -1 ∧
    signed (s.turnTaken.sample.counter - (s.timerRef + s.timerLoad * 1)) = 0 ∧ s.cfg.clockFast = false ∧
    (s.turnTaken.sample.pass).isSome = true := by decide

/-! ### Witnesses: a pass -/

theorem witness_ApplyFoldsTheRequests :
    base.toEnable = 0 ∧ base.toDisable = 0 ∧ ({ base with toEnable := 0x20 } : State).toEnable ≠ 0 ∧
    ({ base with toDisable := 0x20 } : State).toDisable ≠ 0 := by decide

/-- Channel 5 requested by START, channel 4 running high, channel 3 just updated, channel 2 at its deadline, channel 6 requested to
stop, channel 7 constantly high, channel 8 with duty 0. -/
def busy : State :=
  { base with
    channels := ((((((base.channels.setIfInBounds 5 (shape 77 0 .init)).setIfInBounds 4 (shape 0 9 .infinite)).setIfInBounds 3
      (shape 1000 3000 .updateExpiry)).setIfInBounds 2 (shape 0 600 .expires)).setIfInBounds 6
      (shape 0 0 .infinite)).setIfInBounds 7 ⟨0, 600, 600, 0, .infinite⟩).setIfInBounds 8 ⟨600, 0, 600, 0, .infinite⟩
    enabled := 0x1DC, level := 0xDC, toEnable := 0x20, toDisable := 0x40
    firstActivePin := 2, lastActivePin := 8
    gpo := 0xDC
    timerRunning := true, timerArmed := true
    counter := 600, timerRef := 600
    turns := [.dispatch], elapsed := [0, 0, 14, 0] }

theorem busy_passes : ∃ t, busy.pass = some t := some_of_isSome (by decide +kernel)

theorem busy_steps : ∃ t, step busy = .next t := next_of_isSome (by decide +kernel)

theorem witness_RangeBoundsTheEnabledSet :
    base.enabled = 0 ∧ busy.enabled ≠ 0 ∧ maskBit busy.enabled 2 = true ∧ maskBit busy.enabled 8 = true ∧
    ∃ t, busy.pass = some t := ⟨by decide, by decide, by decide, by decide, busy_passes⟩

theorem witness_FreshForeverChannelStartsHigh :
    16 ≤ 16 ∧ ((live (shape 0 0 .infinite) false 4000).setChan 16 (shape 77 0 .init)).chan 16 = shape 77 0 .init ∧
    maskBit (live (shape 0 0 .infinite) false 4000).level 16 = false := by decide

/-- Durations 1, 2^31 - 1 and 0, a channel just updated (V-SVC-3), and channel 16. -/
theorem witness_FreshFiniteChannelGetsItsDeadline :
    ((live (shape 77 1 .init) false 4000).chan 5 = shape 77 1 .init) ∧
    ((live (shape 77 0x7FFFFFFF .init) false 4000).chan 5 = shape 77 0x7FFFFFFF .init) ∧
    0 < (1 : Word).toNat ∧ (0x7FFFFFFF : Word).toNat < 2 ^ 31 ∧ (1 : Word) ≠ 0 ∧
    maskBit (live (shape 77 1 .init) false 4000).level 5 = false ∧
    ((live (shape 77 0 .init) false 4000).chan 5 = shape 77 0 .init) ∧
    ((live (shape 2000 3000 .updateExpiry) false 1800).chan 5 = shape 2000 3000 .updateExpiry) ∧
    (base.setChan 16 (shape 77 1 .init)).chan 16 = shape 77 1 .init ∧ maskBit base.level 16 = false := by decide

theorem witness_HugeDurationExpiresAtOnce :
    ((live (shape 77 0x80000000 .init) false 4000).chan 5 = shape 77 0x80000000 .init) ∧
    2 ^ 31 ≤ (0x80000000 : Word).toNat ∧ maskBit (live (shape 77 0x80000000 .init) false 4000).level 5 = false := by decide

/-- One cycle before the falling edge, without a deadline and with one a cycle ahead; and before a rising edge. -/
theorem witness_ServiceBeforeTheEdgeChangesNothing :
    (live (shape 0 0 .infinite) true 499).chan 5 = shape 0 0 .infinite ∧
    (live (shape 0 500 .expires) true 499).chan 5 = shape 0 500 .expires ∧
    maskBit (live (shape 0 0 .infinite) true 499).level 5 = true ∧
    0 < signed ((0 : Word) + 500 - 499) ∧ 0 < signed ((500 : Word) - 499) ∧
    (live (shape 1000 0 .infinite) false 999).chan 5 = shape 1000 0 .infinite ∧
    maskBit (live (shape 1000 0 .infinite) false 999).level 5 = false ∧ 0 < signed ((1000 : Word) + 0 - 999) := by decide

/-- V-SVC-9d and V-SVC-9b. -/
theorem witness_ExpiryClearsOnlyTheEnabledBit :
    (live (shape 2000 2300 .expires) true 2300).chan 5 = shape 2000 2300 .expires ∧
    signed ((2300 : Word) - 2300) ≤ 0 ∧ 0 < signed ((2000 : Word) + 500 - 2300) ∧
    (live (shape 2500 2495 .expires) false 2500).chan 5 = shape 2500 2495 .expires ∧
    signed ((2495 : Word) - 2500) ≤ signed ((2500 : Word) - 2500) := by decide

/-- On time and 3200 cycles late with duty 500 of 1000; the greatest period, and a duty of 0. -/
theorem witness_DriftLoopCountsItsAdvances :
    signed ((0 : Word) + 500 - 500) ≤ 0 ∧ signed ((0 : Word) + 500 - 3700) ≤ 0 ∧ (500 : Word).toNat ≤ (1000 : Word).toNat ∧
    0 < (0x7FFFFFFF : Word).toNat ∧ (0x7FFFFFFF : Word).toNat < 2 ^ 31 ∧ (0 : Word).toNat ≤ (1 : Word).toNat ∧
    signed ((0 : Word) + 0x7FFFFFFF - 0xFFFFFFFF) ≤ 0 := by decide

theorem witness_DriftLoopStopsAtTheFirstUnfinishedPeriod :
    driftLoop 1000 500 3700 driftFuel 0 = some 4000 := by decide

theorem busy_shapesInBounds : busy.shapesInBounds := by
  intro i hi
  by_cases h : i < 32
  · have hall : ∀ j : Fin 32, (maskBit busy.enabled j || maskBit busy.toEnable j) = true →
        0 < (busy.chan j).period.toNat ∧ (busy.chan j).period.toNat < 2 ^ 31 ∧
          (busy.chan j).duty.toNat ≤ (busy.chan j).period.toNat := by decide
    exact hall ⟨i, h⟩ hi
  · rw [maskBit_of_ge _ (by omega), maskBit_of_ge _ (by omega)] at hi
    exact absurd hi (by decide)

theorem witness_PassCompletesWithinTheBounds : busy.shapesInBounds := busy_shapesInBounds

/-- This drift loop goes round two phases for ever (R145). -/
theorem hanging_loop (fuel : Nat) : driftLoop 0x80000000#32 0#32 0#32 fuel 0#32 = none ∧
    driftLoop 0x80000000#32 0#32 0#32 fuel 0x80000000#32 = none := by
  induction fuel with
  | zero => exact ⟨rfl, rfl⟩
  | succ n ih =>
    have e1 : 0#32 + 0x80000000#32 = 0x80000000#32 := by decide
    have e2 : 0x80000000#32 + 0x80000000#32 = 0#32 := by decide
    refine ⟨?_, ?_⟩
    · rw [driftLoop, e1, if_pos (by decide)]; exact ih.2
    · rw [driftLoop, e2, if_pos (by decide)]; exact ih.1

/-- Channel 5 with the shape of `hanging_loop`, its falling edge due, the timer due. -/
def hanging : State := live ⟨0, 0, 0x80000000, 0, .infinite⟩ true 0

/-- The state in which the sweeps of its pass begin. -/
def hangingSweep : State := hanging.turnTaken.sample.beforeSweeps

theorem hanging_service (cand : Word) : hangingSweep.service 5 cand = none := by
  have hl : hangingSweep.toggleLow 5 = none := by
    have h1 : (hangingSweep.chan 5).period = 0x80000000#32 := by decide
    have h2 : (hangingSweep.chan 5).duty = 0#32 := by decide
    have h3 : (hangingSweep.chan 5).phaseStart = 0#32 := by decide
    have h4 : hangingSweep.counter = 0#32 := by decide
    have h5 : ∀ n, driftLoop 0x80000000#32 0#32 0#32 n 0#32 = none := fun n => (hanging_loop n).1
    rw [State.toggleLow, h1, h2, h3, h4, h5]
  have hc : (hangingSweep.chan 5).prepared hangingSweep.counter = hangingSweep.chan 5 := by decide
  have he : edgeDue ((hangingSweep.chan 5).nextEvent true hangingSweep.counter) ((hangingSweep.chan 5).expiryRemaining
      ((hangingSweep.chan 5).nextEvent true hangingSweep.counter) hangingSweep.counter) = true := by decide
  have hm : maskBit hangingSweep.level 5 = true := by decide
  simp only [State.service, hc, setChan_chan, State.edge, he, hm, if_true, hl, Option.map_none]

theorem hanging_pass : hanging.turnTaken.sample.pass = none := by
  rw [pass_eq_none_iff]
  change hangingSweep.serviceLoop _ = none
  have hsweep : hangingSweep.sweep = none := by
    have hr : hangingSweep.scanRange = [5] := by decide
    have hm : maskBit hangingSweep.enabled 5 = true := by decide
    simp only [State.sweep, hr, State.sweepOver, hm, if_true, hanging_service]
  have he : ¬ hangingSweep.enabled = 0 := by decide
  have hf : sweepFuel = Nat.succ 2147483647 := rfl
  have hs : ∀ (n : Nat) (w : Word), State.sweeps w (Nat.succ n) hangingSweep = none := by
    intro n w
    rw [State.sweeps, hsweep]
  rw [State.serviceLoop, if_neg he, hf]
  exact hs _ _

/-- The step of a machine whose pass hangs is the fault. -/
theorem witness_MachineStopsOnlyOnAHang : step hanging = .fault .passNeverCompletes := by
  have h1 : hanging.turnTaken.sample.due = true := by decide
  have h2 : (hanging.turnTaken.timerRunning && hanging.turnTaken.timerArmed) = true := by decide
  have h3 : hanging.turn = .dispatch := rfl
  simp only [step, h3, State.takeTurn, State.dispatchStep, h1, h2, if_true, hanging_pass]

/-- Rising: V-SVC-9a (past the deadline), V-SVC-8a (duty 0), V-SVC-10a (pin 16, no deadline). Falling: V-SVC-9c (deadline ahead),
V-SVC-7b (constant high), V-SVC-10b (pin 16), and a loop that never ends, on pins 15 and 5. -/
theorem witness_LateEdgeBeforeTheDeadlineIsDriven :
    ((live (shape 2000 2500 .expires) false 2500).chan 5 = shape 2000 2500 .expires ∧
      maskBit (live (shape 2000 2500 .expires) false 2500).level 5 = false ∧
      signed ((2000 : Word) + 0 - 2500) ≤ 0 ∧ signed ((2000 : Word) + 0 - 2500) < signed ((2500 : Word) - 2500) ∧
      signed ((2500 : Word) - 2500) ≤ 0) ∧
    ((live ⟨1000, 0, 1000, 0, .infinite⟩ false 1000).chan 5 = ⟨1000, 0, 1000, 0, .infinite⟩ ∧
      maskBit (live ⟨1000, 0, 1000, 0, .infinite⟩ false 1000).level 5 = false ∧ signed ((1000 : Word) + 0 - 1000) ≤ 0) ∧
    (((base.setChan 16 ⟨50, 10, 20, 0, .infinite⟩).chan 16).mode = .infinite ∧ maskBit base.level 16 = false ∧
      signed ((50 : Word) + 0 - 50) ≤ 0) ∧
    ((live (shape 2000 2600 .expires) true 2500).chan 5 = shape 2000 2600 .expires ∧
      maskBit (live (shape 2000 2600 .expires) true 2500).level 5 = true ∧
      signed ((2000 : Word) + 500 - 2500) ≤ 0 ∧ signed ((2000 : Word) + 500 - 2500) < signed ((2600 : Word) - 2500) ∧
      driftLoop 1000 500 2500 driftFuel 2000 = some 3000) ∧
    ((live ⟨1000, 1000, 1000, 0, .infinite⟩ true 2000).chan 5 = ⟨1000, 1000, 1000, 0, .infinite⟩ ∧
      signed ((1000 : Word) + 1000 - 2000) ≤ 0 ∧ driftLoop 1000 1000 2000 driftFuel 1000 = some 2000) ∧
    (high16.chan 16 = ⟨50, 10, 20, 0, .infinite⟩ ∧ maskBit high16.level 16 = true ∧
      driftLoop 20 10 60 driftFuel 50 = some 70 ∧ signed ((50 : Word) + 10 - 60) ≤ 0) ∧
    (((base.setChan 15 ⟨0, 0, 0x80000000, 0, .infinite⟩).chan 15).mode = .infinite ∧ (hanging.chan 5).mode = .infinite ∧
      maskBit hanging.level 5 = true ∧ signed ((0 : Word) + 0 - 0) ≤ 0 ∧
      driftLoop 0x80000000 0 0 driftFuel 0 = none) :=
  ⟨by decide, by decide, by decide, by decide, by decide, by decide, by decide, by decide, by decide, by decide,
    (hanging_loop driftFuel).1⟩

/-- Channels and no callback; and for the steps 3 and 4, no channel and a callback (V-AUXP-1). -/
theorem witness_PassAcknowledgesAndRearms :
    (∃ t, busy.pass = some t) ∧ busy.auxValid = false ∧
    (∃ r, (called 100 0).enterPass.applyRequests.sampleBeforeSweeps.serviceLoop (called 100 0).counter = some r) ∧
    (called 100 0).auxValid = true ∧ (called 100 0).enabled = 0 :=
  ⟨busy_passes, rfl, ⟨_, rfl⟩, rfl, rfl⟩

/-- A pass; the step that makes one; a step of a port, and one of a port that re-arms the timer, at the end of the span. -/
theorem witness_PassTakesLessThanHalfTheCounter :
    (∃ t, busy.pass = some t) ∧ busy.lapse < 2 ^ 31 ∧ (∃ t, step busy = .next t) ∧
    ∃ t, ({ running (.stop 16 .p5) with lapse := 0x7FFFFFFF } : State).lapse < 2 ^ 31 ∧
      step { running (.stop 16 .p5) with lapse := 0x7FFFFFFF } = .next t :=
  ⟨busy_passes, by decide, busy_steps, _, by decide, rfl⟩

/-- Channel 5 is requested, channel 4 goes on, channel 6 is stopped. -/
theorem witness_PassEnablesWhatWasRequested :
    (∃ t, busy.pass = some t) ∧ busy.folded 5 = true ∧ busy.folded 4 = true ∧ busy.folded 6 = false ∧
    (busy.pass.map fun t => (maskBit t.enabled 4, (t.chan 4).mode)) = some (true, .infinite) :=
  ⟨busy_passes, by decide, by decide, by decide, by decide +kernel⟩

theorem witness_PassLeavesOtherChannelsAlone :
    (∃ t, busy.pass = some t) ∧ busy.folded 6 = false ∧ busy.folded 9 = false := ⟨busy_passes, by decide, by decide⟩

theorem witness_PassKeepsThePhaseLock :
    (∃ t, busy.pass = some t) ∧ (busy.chan 4).mode ≠ .init ∧ busy.shapeInBounds 4 ∧
    ¬ (State.shapeInBounds (live ⟨0, 0, 0x80000000, 0, .infinite⟩ true 0) 5) :=
  ⟨busy_passes, by decide, by unfold State.shapeInBounds; decide, by unfold State.shapeInBounds; decide⟩

theorem busy_sound : busy.Sound where
  cfgValid := by decide
  portCount := by decide
  masksFit := by unfold maskFits; decide
  rangeBounds := by
    intro i h
    by_cases hi : i < 32
    · have hall : ∀ j : Fin 32, maskBit busy.enabled j = true →
          busy.firstActivePin.toNat ≤ j ∧ j ≤ busy.lastActivePin.toNat := by decide
      exact hall ⟨i, hi⟩ h
    · rw [maskBit_of_ge _ (by omega)] at h; exact absurd h (by decide)
  periodSet := by
    intro i h h0
    have := (busy_shapesInBounds i h).1
    rw [h0] at this; exact absurd this (by decide)
  notReserved := by
    intro i _
    exact BitVec.getLsbD_zero
  commandsSound := by
    intro p hp c hc
    have : p = Port.reset := by simpa [busy, base] using hp
    subst this; exact absurd hc (by simp [Port.reset])
  lapseBound := by decide

/-- Channel 5 is requested in `Init`, 3 just updated, 2 in `Expires`, 4 in `Infinite`; channel 9, in `Init`, takes no part. -/
theorem witness_PassMovesModesByTheStateMachine :
    (∃ t, busy.pass = some t) ∧ busy.Sound ∧ busy.folded 5 = true ∧ (busy.chan 5).mode = .init ∧
    busy.folded 3 = true ∧ (busy.chan 3).mode = .updateExpiry ∧ busy.folded 2 = true ∧ (busy.chan 2).mode = .expires ∧
    busy.folded 4 = true ∧ (busy.chan 4).mode = .infinite ∧ busy.folded 9 = false ∧ (busy.chan 9).mode = .init :=
  ⟨busy_passes, busy_sound, by decide, by decide, by decide, by decide, by decide, by decide, by decide, by decide,
    by decide, by decide⟩

theorem witness_PassIgnoresTheExpiryOfInfiniteChannels :
    (∃ t, busy.pass = some t) ∧ (busy.chan 4).mode = .infinite := ⟨busy_passes, by decide⟩

theorem witness_SweepDisablesExpiredChannels :
    (∃ r, busy.sweep = some r) ∧ 2 ∈ busy.scanRange ∧ (busy.chan 2).mode = .expires ∧
    signed ((busy.chan 2).expiry - busy.counter) ≤ 0 :=
  ⟨some_of_isSome (by decide +kernel), by decide, by decide, by decide⟩

/-- Channel 7 is constantly high and its falling edge is due. -/
theorem witness_ConstantHighLatchStaysHigh :
    (∃ t, step busy = .next t) ∧ (busy.chan 7).duty = (busy.chan 7).period ∧ busy.latch 7 = true :=
  ⟨busy_steps, by decide, by decide⟩

/-- Channel 8 has duty 0 and its rising edge is due. -/
theorem witness_ZeroDutyLatchStaysLow :
    (∃ t, step busy = .next t) ∧ (busy.chan 8).duty = 0 ∧ busy.latch 8 = false := ⟨busy_steps, by decide, by decide⟩

theorem witness_CallbackDelayIsIntersected :
    base.auxValid = false ∧ ({ base with auxValid := true, auxAnswers := [3] } : State).auxValid = true := ⟨rfl, rfl⟩

/-- A fast and a slow clock; the greatest candidate, the least whose difference with the compensation of TC-B does not wrap, and
one for each side of the maximum. -/
theorem witness_RearmIntervalIsBounded :
    tcB.valid = true ∧ tcB.clockFast = true ∧ tcA.valid = true ∧ tcA.clockFast = false ∧
    signed tcB.tMaxirq ≤ signed tcB.tMaxirq ∧ -(2 ^ 31) ≤ signed tcB.tMaxirq - signed tcB.tComp ∧
    signed 0x80000064 ≤ signed tcB.tMaxirq ∧ -(2 ^ 31) ≤ signed 0x80000064 - signed tcB.tComp ∧
    signed tcB.tMinArm < signed (500000 - tcB.tComp) ∧ signed (299 - tcB.tComp) < signed tcB.tMinArm := by decide

/-- No channel enabled; one sweep; the three sweeps of `test_sweeps`; the fourteen of V-LOOP-1. -/
theorem witness_SweepsRepeatWhileAnEventIsImminent :
    (base.enabled = 0 ∧ ∃ r, base.serviceLoop 0 = some r) ∧
    (live (shape 0 0 .infinite) true 100).enabled ≠ 0 ∧
    (∃ r, (live (shape 0 0 .infinite) true 100).serviceLoop 100 = some r) ∧
    (∃ r, (live (shape 0 0 .infinite) true 499).serviceLoop 499 = some r) ∧
    ∃ r, loop1.serviceLoop 0 = some r :=
  ⟨⟨by decide, _, rfl⟩, by decide, some_of_isSome (by decide +kernel), some_of_isSome (by decide +kernel),
    some_of_isSome (by decide +kernel)⟩

/-! ### Witnesses: the invariants -/

/-- Channel 5 runs; port 0 starts channel 7, whose request bit it sets next. -/
def starting : State :=
  { live (shape 0 0 .infinite) true 100 with
    channels := (base.channels.setIfInBounds 5 (shape 0 0 .infinite)).setIfInBounds 7 ⟨0, 10, 20, 0, .init⟩
    ports := [{ inbox := [], cmd := some (.start 7 10 20 0 .s7), result := false }, Port.reset]
    turns := [.port 0] }

theorem starting_enabled {i : Nat} (h : (maskBit starting.enabled i || maskBit starting.toEnable i) = true) : i = 5 := by
  by_cases hi : i < 32
  · have hall : ∀ j : Fin 32, (maskBit starting.enabled j || maskBit starting.toEnable j) = true → j = 5 := by decide
    exact congrArg Fin.val (hall ⟨i, hi⟩ h)
  · rw [maskBit_of_ge _ (by omega), maskBit_of_ge _ (by omega)] at h
    exact absurd h (by decide)

theorem starting_ports {p : Port} (h : p ∈ starting.ports) :
    p = { inbox := [], cmd := some (.start 7 10 20 0 .s7), result := false } ∨ p = Port.reset := by
  simpa [starting] using h

theorem starting_sound : starting.Sound where
  cfgValid := by decide
  portCount := by decide
  masksFit := by unfold maskFits; decide
  rangeBounds := by
    intro i h
    have : i = 5 := starting_enabled (by rw [h]; rfl)
    subst this; decide
  periodSet := by
    intro i h
    have := starting_enabled h
    subst this; decide
  notReserved := by
    intro i h
    have := starting_enabled h
    subst this; decide
  commandsSound := by
    intro p hp c hc
    rcases starting_ports hp with rfl | rfl
    · simp only [Option.some.injEq] at hc
      subst hc
      exact ⟨fun _ => by decide, fun _ => by decide⟩
    · exact absurd hc (by simp [Port.reset])
  lapseBound := by decide

theorem starting_orderly : starting.Orderly where
  enabledInitialised := by
    intro i h
    have : i = 5 := starting_enabled (by rw [h]; rfl)
    subst this; decide
  requestOwned := by
    intro i h
    have : i = 5 := starting_enabled (by rw [h]; simp)
    subst this
    exact absurd h (by decide)
  preparedDisabled := by
    intro p hp pin duty period run k hc _
    rcases starting_ports hp with rfl | rfl
    · simp only [Option.some.injEq, Command.start.injEq] at hc
      obtain ⟨rfl, -⟩ := hc
      decide
    · exact absurd hc (by simp [Port.reset])

/-- With two ports, the second idle, no two ports start one channel. -/
theorem one_start {s : State} {p : Port} (h : s.ports = [p, Port.reset]) : s.oneStartPerPin := by
  have key : ∀ q i, s.startsOn q i → q = 0 := by
    rintro q i ⟨p', pin, duty, period, run, k, hq, hc, -⟩
    rw [h] at hq
    match q with
    | 0 => rfl
    | 1 =>
      simp only [List.getElem?_cons_succ, List.getElem?_cons_zero, Option.some.injEq] at hq
      subst hq; exact absurd hc (by simp [Port.reset])
    | n + 2 => exact absurd hq (by simp)
  intro q r i hq hr
  rw [key q i hq, key r i hr]

theorem witness_StepKeepsTheMachineSound : starting.Sound ∧ ∃ t, step starting = .next t :=
  ⟨starting_sound, next_of_isSome (by decide)⟩

theorem witness_StepKeepsEnabledChannelsInitialised :
    starting.Sound ∧ starting.Orderly ∧ starting.oneStartPerPin ∧ ∃ t, step starting = .next t ∧ t.oneStartPerPin :=
  ⟨starting_sound, starting_orderly, one_start rfl, _, rfl, one_start rfl⟩

/-- Fields 136 and 139, 0 and 128, 141, 148. -/
theorem witness_FieldNumbersReadTheirFields :
    starting.Sound ∧ (∃ w, starting.readField 136 = .ok w) ∧ (∃ w, starting.readField 139 = .ok w) ∧ 16 ≤ 16 :=
  ⟨starting_sound, ⟨_, rfl⟩, ⟨_, rfl⟩, by decide⟩

end Sys2Proof.Tests
end

/-! PROOFS. What a step runs and what no step writes (spec/00_scope.md rules R7, R16). -/

namespace Sys2Proof.Machine

/-! ### A port's turn (R16, R100) -/

/-- A turn of a port is that port's step, with the turn used up. -/
theorem step_of_port {s : State} {p : Nat} (h : s.turn = .port p) :
    step s = { s.turnTaken with active := p }.portStep := by
  simp only [step, h, State.takeTurn]

/-- A port with a command in progress runs it. -/
theorem portStep_of_cmd {s : State} {q : Port} {c : Command} (hq : s.activePort = some q) (hc : q.cmd = some c) :
    s.portStep = exec c.instr s := by
  simp only [State.portStep, hq, hc]

/-- An idle port accepts its oldest frame. -/
theorem portStep_of_frame {s : State} {q : Port} {f : Frame} {rest : List Frame} (hq : s.activePort = some q)
    (hc : q.cmd = none) (hin : q.inbox = f :: rest) : s.portStep = s.acceptFrame f := by
  simp only [State.portStep, hq, hc, hin]

/-- A legal frame is accepted by running its command. -/
theorem acceptFrame_of_decodes {s : State} {f : Frame} {i : Instr} (h : decodeBytes (frameBytes f) = .ok i) :
    s.acceptFrame f = exec i s.frameTaken := by
  simp only [State.acceptFrame, h]

/-- Taking a frame writes the inbox of the active port and nothing else. -/
theorem frameTaken_of_inbox {s : State} {q : Port} {f : Frame} {rest : List Frame} (hq : s.activePort = some q)
    (hin : q.inbox = f :: rest) : s.frameTaken = { s with ports := s.ports.set s.active { q with inbox := rest } } := by
  have hport : s.ports[s.active]? = some q := hq
  simp only [State.frameTaken, State.onPort, List.modify_eq_set_getElem?, hport, hin, List.tail_cons,
    Option.map_eq_map, Option.map_some, Option.getD_some]

/-- Settles O5: by whether the port has a command in progress or an idle port has a legal frame before it. -/
theorem stepRunsTheDecodedCommand : Obligations.StepRunsTheDecodedCommand := by
  intro s p q hturn hport
  have hq : ({ s.turnTaken with active := p } : State).activePort = some q := by
    simpa only [State.activePort, State.turnTaken_ports] using hport
  refine ⟨fun c hc => ?_, fun f rest i hc hin hdec => ?_⟩
  · rw [step_of_port hturn, portStep_of_cmd hq hc]
  · rw [step_of_port hturn, portStep_of_frame hq hc hin, acceptFrame_of_decodes hdec, frameTaken_of_inbox hq hin,
      State.turnTaken_ports]

/-! ### The configuration (R7, R188) -/

theorem startMicroStep_cfg (pin : Pin) (duty period run : Word) (k : StartStep) (s : State) :
    (startMicroStep pin duty period run k s).cfg = s.cfg := by
  cases k with
  | s1 | s4 | s9 _ | s10 | s14 => simp only [startMicroStep]; split <;> simp
  | _ => simp [startMicroStep]

theorem stopMicroStep_cfg (pin : Pin) (k : StopStep) (s : State) : (stopMicroStep pin k s).cfg = s.cfg := by
  cases k with
  | p1 | p2 | p3 | p6 | p9 _ _ => simp only [stopMicroStep]; split <;> simp
  | _ => simp [stopMicroStep]

theorem setauxMicroStep_cfg (fn : Word) (k : SetauxStep) (s : State) : (setauxMicroStep fn k s).cfg = s.cfg := by
  cases k with
  | a4 _ => simp only [setauxMicroStep]; split <;> simp
  | _ => simp [setauxMicroStep]

theorem clrauxMicroStep_cfg (k : ClrauxStep) (s : State) : (clrauxMicroStep k s).cfg = s.cfg := by
  cases k with
  | b3 _ => simp only [clrauxMicroStep]; split <;> simp
  | _ => simp [clrauxMicroStep]

/-- No micro-step of any command writes the configuration. -/
theorem microStep_cfg (c : Command) (s : State) : (c.microStep s).cfg = s.cfg := by
  cases c with
  | start pin duty period run k => exact startMicroStep_cfg pin duty period run k s
  | stop pin k => exact stopMicroStep_cfg pin k s
  | setaux fn k => exact setauxMicroStep_cfg fn k s
  | clraux k => exact clrauxMicroStep_cfg k s

theorem exec_cfg {i : Instr} {s t : State} (h : exec i s = .next t) : t.cfg = s.cfg := by
  obtain ⟨-, rfl⟩ | ⟨c, -, -, rfl⟩ := exec_next_cases h
  · simp
  · exact microStep_cfg c s

theorem portStep_cfg {s t : State} (h : s.portStep = .next t) : t.cfg = s.cfg := by
  obtain rfl | ⟨c, -, hexec⟩ | ⟨i, -, hexec⟩ | rfl := portStep_next_cases h
  · rfl
  · exact exec_cfg hexec
  · simpa using exec_cfg hexec
  · simp

theorem beforeSweeps_cfg (s : State) : s.beforeSweeps.cfg = s.cfg := by
  simp only [State.beforeSweeps, State.sampleBeforeSweeps_eq, State.sampleWithin_cfg]
  exact applyRequests_keeps (·.cfg) State.apply_cfg s.enterPass

theorem serviceLoop_cfg {s t : State} {entry cand : Word} (h : s.serviceLoop entry = some (t, cand)) :
    t.cfg = s.cfg :=
  serviceLoop_field (·.cfg) (fun _ _ _ _ _ hserv => (service_effect hserv).cfg)
    (fun u => u.sampleWithin_cfg 1 spanLimit) h

/-- A pass reads the configuration in its sweeps, in AUX and in REARM, and writes it nowhere. -/
theorem pass_cfg {s t : State} (h : s.pass = some t) : t.cfg = s.cfg := by
  obtain ⟨u, cand, hloop, rfl⟩ := pass_some h
  calc ((u.consultCallback cand).1.rearm (u.consultCallback cand).2).cfg
      = (u.consultCallback cand).1.cfg := State.rearm_cfg _ _
    _ = u.cfg := consultCallback_keeps (·.cfg) (fun v => by simp) u cand
    _ = s.beforeSweeps.cfg := serviceLoop_cfg hloop
    _ = s.cfg := beforeSweeps_cfg s

theorem dispatchStep_cfg {s t : State} (h : s.dispatchStep = .next t) : t.cfg = s.cfg := by
  obtain rfl | rfl | ⟨-, hpass⟩ := dispatchStep_next_cases h
  · rfl
  · simp
  · simpa using pass_cfg hpass

/-- Settles O25: by the agent whose turn it is, a port or the dispatch engine. -/
theorem configurationIsConstant : Obligations.ConfigurationIsConstant := by
  intro s t h
  obtain ⟨p, -, hport⟩ | ⟨-, hdispatch⟩ := step_next_cases h
  · simpa using portStep_cfg hport
  · simpa using dispatchStep_cfg hdispatch

end Sys2Proof.Machine

/-! PROOFS. What a port's step can do, said once (R100), and what it leaves to the other ports (R35, R62). -/

namespace Sys2Proof.Machine

/-! ### What a micro-step writes (R101, R106, R109, R110) -/

/-- The Channel Table, the masks, the scan range, the configuration and the ports are the same. -/
structure State.SameTable (s t : State) : Prop where
  channels : t.channels = s.channels
  enabled : t.enabled = s.enabled
  level : t.level = s.level
  toEnable : t.toEnable = s.toEnable
  toDisable : t.toDisable = s.toDisable
  firstActivePin : t.firstActivePin = s.firstActivePin
  lastActivePin : t.lastActivePin = s.lastActivePin
  cfg : t.cfg = s.cfg
  ports : t.ports = s.ports

/-- The counter and the lapse are as they were, or as one sample leaves them. -/
def State.SameOrSampled (s t : State) : Prop :=
  (t.counter = s.counter ∧ t.lapse = s.lapse) ∨ (t.counter = s.sample.counter ∧ t.lapse = s.sample.lapse)

theorem State.SameOrSampled.refl (s : State) : s.SameOrSampled s := .inl ⟨rfl, rfl⟩

theorem State.SameTable.refl (s : State) : s.SameTable s := by constructor <;> rfl

theorem State.SameTable.trans {s t u : State} (h : s.SameTable t) (h' : t.SameTable u) : s.SameTable u where
  channels := h'.channels.trans h.channels
  enabled := h'.enabled.trans h.enabled
  level := h'.level.trans h.level
  toEnable := h'.toEnable.trans h.toEnable
  toDisable := h'.toDisable.trans h.toDisable
  firstActivePin := h'.firstActivePin.trans h.firstActivePin
  lastActivePin := h'.lastActivePin.trans h.lastActivePin
  cfg := h'.cfg.trans h.cfg
  ports := h'.ports.trans h.ports

theorem sameTable_sampleWithin (s : State) (least ceiling : Nat) : s.SameTable (s.sampleWithin least ceiling) := by
  constructor <;> simp

theorem sameTable_tarm (s : State) (w : Word) : s.SameTable (s.tarm w) := by constructor <;> simp

theorem sameTable_tstart (s : State) : s.SameTable s.tstart := by constructor <;> simp

theorem sameTable_turnTaken (s : State) : s.SameTable s.turnTaken := by constructor <;> simp

/-- Whose turn it is is no part of the table. -/
theorem sameTable_turn (s : State) (p : Nat) : s.SameTable { s.turnTaken with active := p } :=
  { sameTable_turnTaken s with }

theorem sameTable_auxAnswerTaken (s : State) : s.SameTable s.auxAnswerTaken := by constructor <;> simp

theorem sameTable_enterPass (s : State) : s.SameTable s.enterPass := by constructor <;> rfl

theorem sameTable_rearm (s : State) (cand : Word) : s.SameTable (s.rearm cand) := by constructor <;> simp

/-- The callback has no access to the table (R136). -/
theorem sameTable_consultCallback (s : State) (cand : Word) : s.SameTable (s.consultCallback cand).1 := by
  unfold State.consultCallback
  split
  · exact (sameTable_auxAnswerTaken s).trans (sameTable_sampleWithin ..)
  · exact .refl s

/-- A pass leaves the table as its sweeps leave it (R136, R137). -/
theorem pass_sweeps {s t : State} (h : s.pass = some t) :
    ∃ u cand, s.beforeSweeps.serviceLoop s.counter = some (u, cand) ∧ u.SameTable t := by
  obtain ⟨u, cand, hloop, rfl⟩ := pass_some h
  exact ⟨u, cand, hloop, (sameTable_consultCallback u cand).trans (sameTable_rearm ..)⟩

/-- START prepares channel `i`: it has read it as not enabled and has not set its request bit yet. -/
def Command.prepares : Command → Nat → Bool
  | .start pin _ _ _ k, i => decide (pinIndex pin = i) && k.preparing
  | .stop _ _, _ | .setaux _ _, _ | .clraux _, _ => false

/-- START has requested channel `i` and has not seen the request taken yet. -/
def Command.requests : Command → Nat → Bool
  | .start pin _ _ _ k, i => decide (pinIndex pin = i) && k.requesting
  | .stop _ _, _ | .setaux _ _, _ | .clraux _, _ => false

/-- Everything the next micro-step of a command can write outside the ports. -/
inductive Command.Writes (s : State) : Command → State → Prop
  /-- Nothing of the table: the callback registration, the timer. -/
  | registers {c : Command} {u : State} (table : s.SameTable u) (active : u.active = s.active)
      (time : s.SameOrSampled u) : Writes s c u
  /-- START writes the record of its channel. -/
  | record {pin : Pin} {duty period run : Word} {k : StartStep} (ch : Channel)
      (period_eq : ch.period = (s.chan (pinIndex pin)).period ∨ (k.validated = true ∧ ch.period = period))
      (mode_init : ch.mode = .init → (s.chan (pinIndex pin)).mode = .init ∨ k.preparing = true) :
      Writes s (.start pin duty period run k) (s.setChan (pinIndex pin) ch)
  /-- START sets its request bit. -/
  | requestEnable {pin : Pin} {duty period run : Word} :
      Writes s (.start pin duty period run .s7) (s.requestEnable (pinIndex pin))
  /-- STOP sets its request bit. -/
  | requestDisable {pin : Pin} : Writes s (.stop pin .p4) (s.requestDisable (pinIndex pin))

/-- What the invariants ask of a command `c` that goes on to `c'` while the machine goes from `s` to `u`. -/
structure Command.Moves (s u : State) (c c' : Command) : Prop where
  sound : s.commandSound c → u.commandSound c'
  prepares : ∀ i, c'.prepares i = true → c.prepares i = true ∨ maskBit u.enabled i = false
  requests : ∀ i, c.requests i = true → c'.requests i = true ∨ maskBit u.toEnable i = false

/-- Everything that can become of the active port in a micro-step of `c`. -/
inductive Command.Leads (s u : State) (c : Command) : (Port → Port) → Prop
  | holds (same : u = s) : Leads s u c id
  | goesOn {c' : Command} (moves : c.Moves s u c') : Leads s u c fun p => { p with cmd := some c' }
  | returns (b : Bool) (idle : ∀ i, c.requests i = false) : Leads s u c fun p => { p with cmd := none, result := b }

/-- A micro-step writes, and then moves the active port. -/
def Command.Does (s : State) (c : Command) (t : State) : Prop :=
  ∃ u f, t = u.onPort f ∧ c.Writes s u ∧ c.Leads s u f

theorem Command.Writes.nothing (s : State) (c : Command) : c.Writes s s :=
  .registers (by constructor <;> rfl) rfl (.refl s)

theorem Command.Writes.tarm (s : State) (c : Command) (w : Word) : c.Writes s (s.tarm w) :=
  .registers (sameTable_tarm s w) (by simp) (.inr ⟨by simp, by simp⟩)

theorem Command.Writes.tstart (s : State) (c : Command) : c.Writes s s.tstart :=
  .registers (sameTable_tstart s) (by simp) (.inr ⟨by simp, by simp⟩)

theorem Command.Writes.tstop (s : State) (c : Command) : c.Writes s s.tstop :=
  .registers (by constructor <;> rfl) rfl (.refl s)

theorem Command.Writes.setAuxFn (s : State) (c : Command) (fn : Word) : c.Writes s (s.setAuxFn fn) :=
  .registers (by constructor <;> rfl) rfl (.refl s)

theorem Command.Writes.setAuxValid (s : State) (c : Command) (b : Bool) : c.Writes s (s.setAuxValid b) :=
  .registers (by constructor <;> rfl) rfl (.refl s)

theorem Command.Writes.ports {s u : State} {c : Command} (h : c.Writes s u) : u.ports = s.ports ∧ u.active = s.active := by
  cases h with
  | registers table active _ => exact ⟨table.ports, active⟩
  | record _ _ _ | requestEnable | requestDisable => exact ⟨rfl, rfl⟩

theorem Command.Writes.time {s u : State} {c : Command} (h : c.Writes s u) : s.SameOrSampled u := by
  cases h with
  | registers _ _ time => exact time
  | record _ _ _ | requestEnable | requestDisable => exact .refl s

/-! ### START, STOP, SETAUX and CLRAUX by their micro-steps -/

/-- A write that keeps the period of its record leaves every period that is not 0 so. -/
theorem period_setChan {s : State} {i j : Nat} {c : Channel} (hc : c.period = (s.chan i).period)
    (hj : (s.chan j).period ≠ 0) : ((s.setChan i c).chan j).period ≠ 0 := by
  rw [chan_setChan]
  split
  · rename_i h
    rwa [hc, ← h.1]
  · exact hj

/-- START moves on: its tests passed, its period written, its claims on the channel handed over. -/
theorem start_moves {s u : State} {pin : Pin} {duty period run : Word} {k k' : StartStep} (hcfg : u.cfg = s.cfg)
    (hvalid : k.validated = true ∨ s.startRefuses pin period = false)
    (hshape : k'.shaped = true → s.commandSound (.start pin duty period run k) → (u.chan (pinIndex pin)).period ≠ 0)
    (hprep : k'.preparing = true → k.preparing = true ∨ maskBit u.enabled (pinIndex pin) = false)
    (hreq : k.requesting = true → k'.requesting = true ∨ maskBit u.toEnable (pinIndex pin) = false) :
    (Command.start pin duty period run k).Moves s u (.start pin duty period run k') where
  sound := fun hc => ⟨fun _ => by
    have := hvalid.elim hc.1 id
    simpa only [State.startRefuses, hcfg] using this, fun hk => hshape hk hc⟩
  prepares := fun i hi => by
    simp only [Command.prepares, Bool.and_eq_true, decide_eq_true_eq] at hi ⊢
    obtain ⟨rfl, hk⟩ := hi
    exact (hprep hk).imp_left fun h => ⟨rfl, h⟩
  requests := fun i hi => by
    simp only [Command.requests, Bool.and_eq_true, decide_eq_true_eq] at hi ⊢
    obtain ⟨rfl, hk⟩ := hi
    exact (hreq hk).imp_left fun h => ⟨rfl, h⟩

/-- A pin START does not refuse is a channel that is not reserved, and its period is not 0 (R101). -/
theorem startRefuses_eq_false {s : State} {pin : Pin} {period : Word} :
    s.startRefuses pin period = false ↔
      pinIndex pin ≤ 16 ∧ maskBit s.cfg.reservedPins (pinIndex pin) = false ∧ period ≠ 0 := by
  simp [State.startRefuses, and_assoc]

theorem startMicroStep_does (pin : Pin) (duty period run : Word) (k : StartStep) (s : State) :
    (Command.start pin duty period run k).Does s (startMicroStep pin duty period run k s) := by
  have shaped {k : StartStep} (hk : k.shaped = true) (hc : s.commandSound (.start pin duty period run k)) :
      (s.chan (pinIndex pin)).period ≠ 0 := hc.2 hk
  cases k with
  | s1 =>
    by_cases h : s.startRefuses pin period = true
    · exact ⟨s, _, if_pos h, .nothing s _, .returns false fun i => by simp [Command.requests, StartStep.requesting]⟩
    · exact ⟨s, _, if_neg h, .nothing s _, .goesOn (start_moves rfl (.inr (by simpa using h)) nofun nofun nofun)⟩
  | s2 =>
    exact ⟨s.setDuty _ duty, _, rfl, .record _ (.inl rfl) .inl, .goesOn (start_moves rfl (.inl rfl) nofun nofun nofun)⟩
  | s3 =>
    refine ⟨s.setPeriod _ period, _, rfl, .record _ (.inr ⟨rfl, rfl⟩) .inl,
      .goesOn (start_moves rfl (.inl rfl) (fun _ hc => ?_) nofun nofun)⟩
    obtain ⟨hpin, -, hperiod⟩ := startRefuses_eq_false.mp (hc.1 rfl)
    rw [State.setPeriod_eq, chan_setChan_self s (by omega)]
    exact hperiod
  | s4 =>
    by_cases h : maskBit s.enabled (pinIndex pin) = true
    · exact ⟨s, _, if_pos h, .nothing s _, .goesOn (start_moves rfl (.inl rfl) (fun _ => shaped rfl) nofun nofun)⟩
    · exact ⟨s, _, if_neg h, .nothing s _,
        .goesOn (start_moves rfl (.inl rfl) (fun _ => shaped rfl) (fun _ => .inr (by simpa using h)) nofun)⟩
  | s5 =>
    exact ⟨s.setMode _ .init, _, rfl, .record _ (.inl rfl) fun _ => .inr rfl,
      .goesOn (start_moves rfl (.inl rfl) (fun _ hc => period_setChan rfl (shaped rfl hc)) (fun _ => .inl rfl) nofun)⟩
  | s6 =>
    exact ⟨s.setExpiry _ run, _, rfl, .record _ (.inl rfl) .inl,
      .goesOn (start_moves rfl (.inl rfl) (fun _ hc => period_setChan rfl (shaped rfl hc)) (fun _ => .inl rfl) nofun)⟩
  | s7 =>
    exact ⟨s.requestEnable _, _, rfl, .requestEnable,
      .goesOn (start_moves rfl (.inl rfl) (fun _ => shaped rfl) nofun nofun)⟩
  | s8 =>
    exact ⟨s, _, rfl, .nothing s _,
      .goesOn (start_moves rfl (.inl rfl) (fun _ => shaped rfl) nofun fun _ => .inl rfl)⟩
  | s9 running =>
    cases running with
    | true =>
      refine ⟨s.tarm s.cfg.tKick, _, rfl, .tarm s _ _,
        .goesOn (start_moves (by simp) (.inl rfl) (fun _ hc => ?_) nofun fun _ => .inl rfl)⟩
      rw [chan_eq_of_channels (sameTable_tarm s _).channels]
      exact shaped rfl hc
    | false =>
      refine ⟨s.tstart, _, rfl, .tstart s _,
        .goesOn (start_moves (by simp) (.inl rfl) (fun _ hc => ?_) nofun fun _ => .inl rfl)⟩
      rw [chan_eq_of_channels (sameTable_tstart s).channels]
      exact shaped rfl hc
  | s10 =>
    by_cases h : maskBit s.toEnable (pinIndex pin) = true
    · exact ⟨s, id, (if_pos h).trans (by simp [State.onPort]), .nothing s _, .holds rfl⟩
    · exact ⟨s, _, if_neg h, .nothing s _,
        .goesOn (start_moves rfl (.inl rfl) (fun _ => shaped rfl) nofun fun _ => .inr (by simpa using h))⟩
  | s12 =>
    exact ⟨s.setMode _ .infinite, _, rfl, .record _ (.inl rfl) nofun,
      .goesOn (start_moves rfl (.inl rfl) (fun _ hc => period_setChan rfl (shaped rfl hc)) nofun nofun)⟩
  | s13 =>
    exact ⟨s.setExpiry _ run, _, rfl, .record _ (.inl rfl) .inl,
      .goesOn (start_moves rfl (.inl rfl) (fun _ hc => period_setChan rfl (shaped rfl hc)) nofun nofun)⟩
  | s14 =>
    by_cases h : run ≠ 0
    · exact ⟨s.setMode _ .updateExpiry, _, congrArg (State.goto · _) (if_pos h), .record _ (.inl rfl) nofun,
        .goesOn (start_moves rfl (.inl rfl) (fun _ hc => period_setChan rfl (shaped rfl hc)) nofun nofun)⟩
    · exact ⟨s, _, congrArg (State.goto · _) (if_neg h), .nothing s _,
        .goesOn (start_moves rfl (.inl rfl) (fun _ => shaped rfl) nofun nofun)⟩
  | s11 | s15 =>
    exact ⟨s, _, rfl, .nothing s _, .returns true fun i => by simp [Command.requests, StartStep.requesting]⟩

theorem stop_moves {s u : State} {pin : Pin} {k k' : StopStep} (h : k.validated = true ∨ pinIndex pin ≤ 16) :
    (Command.stop pin k).Moves s u (.stop pin k') where
  sound := fun hc _ => h.elim hc id
  prepares := nofun
  requests := nofun

theorem stopMicroStep_does (pin : Pin) (k : StopStep) (s : State) :
    (Command.stop pin k).Does s (stopMicroStep pin k s) := by
  cases k with
  | p1 =>
    by_cases h : 16 < pinIndex pin
    · exact ⟨s, _, if_pos h, .nothing s _, .returns false fun _ => rfl⟩
    · exact ⟨s, _, if_neg h, .nothing s _, .goesOn (stop_moves (.inr (by omega)))⟩
  | p2 =>
    by_cases h : s.timerRunning = true
    · exact ⟨s, _, if_pos h, .nothing s _, .goesOn (stop_moves (.inl rfl))⟩
    · exact ⟨s, _, if_neg h, .nothing s _, .returns false fun _ => rfl⟩
  | p3 =>
    by_cases h : maskBit s.enabled (pinIndex pin) = true
    · exact ⟨s, _, if_pos h, .nothing s _, .goesOn (stop_moves (.inl rfl))⟩
    · exact ⟨s, _, if_neg h, .nothing s _, .returns false fun _ => rfl⟩
  | p4 => exact ⟨s.requestDisable _, _, rfl, .requestDisable, .goesOn (stop_moves (.inl rfl))⟩
  | p5 => exact ⟨s.tarm s.cfg.tKick, _, rfl, .tarm s _ _, .goesOn (stop_moves (.inl rfl))⟩
  | p6 =>
    by_cases h : maskBit s.toDisable (pinIndex pin) = true
    · exact ⟨s, id, (if_pos h).trans (by simp [State.onPort]), .nothing s _, .holds rfl⟩
    · exact ⟨s, _, if_neg h, .nothing s _, .goesOn (stop_moves (.inl rfl))⟩
  | p7 | p8 _ => exact ⟨s, _, rfl, .nothing s _, .goesOn (stop_moves (.inl rfl))⟩
  | p9 e2 a =>
    by_cases h : e2 = 0 ∧ a = false
    · exact ⟨s.tstop, _, congrArg (State.goto · _) (if_pos h), .tstop s _, .goesOn (stop_moves (.inl rfl))⟩
    · exact ⟨s, _, congrArg (State.goto · _) (if_neg h), .nothing s _, .goesOn (stop_moves (.inl rfl))⟩
  | p10 => exact ⟨s, _, rfl, .nothing s _, .returns true fun _ => rfl⟩

theorem setaux_moves (s u : State) (fn : Word) (k k' : SetauxStep) :
    (Command.setaux fn k).Moves s u (.setaux fn k') := ⟨fun _ => trivial, nofun, nofun⟩

theorem setauxMicroStep_does (fn : Word) (k : SetauxStep) (s : State) :
    (Command.setaux fn k).Does s (setauxMicroStep fn k s) := by
  cases k with
  | a1 => exact ⟨s.setAuxFn fn, _, rfl, .setAuxFn s _ fn, .goesOn (setaux_moves ..)⟩
  | a2 => exact ⟨s.setAuxValid true, _, rfl, .setAuxValid s _ true, .goesOn (setaux_moves ..)⟩
  | a3 => exact ⟨s, _, rfl, .nothing s _, .goesOn (setaux_moves ..)⟩
  | a4 running =>
    cases running with
    | true => exact ⟨s, _, rfl, .nothing s _, .goesOn (setaux_moves ..)⟩
    | false => exact ⟨s.tstart, _, rfl, .tstart s _, .goesOn (setaux_moves ..)⟩
  | a5 => exact ⟨s, _, rfl, .nothing s _, .returns true fun _ => rfl⟩

theorem clraux_moves (s u : State) (k k' : ClrauxStep) : (Command.clraux k).Moves s u (.clraux k') :=
  ⟨fun _ => trivial, nofun, nofun⟩

theorem clrauxMicroStep_does (k : ClrauxStep) (s : State) : (Command.clraux k).Does s (clrauxMicroStep k s) := by
  cases k with
  | b1 => exact ⟨s.setAuxValid false, _, rfl, .setAuxValid s _ false, .goesOn (clraux_moves ..)⟩
  | b2 => exact ⟨s, _, rfl, .nothing s _, .goesOn (clraux_moves ..)⟩
  | b3 e =>
    by_cases h : e = 0
    · exact ⟨s.tstop, _, congrArg (State.goto · _) (if_pos h), .tstop s _, .goesOn (clraux_moves ..)⟩
    · exact ⟨s, _, congrArg (State.goto · _) (if_neg h), .nothing s _, .goesOn (clraux_moves ..)⟩
  | b4 => exact ⟨s, _, rfl, .nothing s _, .returns true fun _ => rfl⟩

/-- Everything the next micro-step of a command can do, said once. -/
theorem microStep_does (c : Command) (s : State) : c.Does s (c.microStep s) := by
  cases c with
  | start pin duty period run k => exact startMicroStep_does pin duty period run k s
  | stop pin k => exact stopMicroStep_does pin k s
  | setaux fn k => exact setauxMicroStep_does fn k s
  | clraux k => exact clrauxMicroStep_does k s

/-! ### A port's step (R100) -/

/-- What an idle port becomes: it stays idle or begins a command. -/
def Port.Accepts (f : Port → Port) : Prop := ∀ p, (f p).cmd = none ∨ ∃ i, (f p).cmd = some (Command.first i)

theorem onPort_onPort (s : State) (f g : Port → Port) : (s.onPort f).onPort g = s.onPort (g ∘ f) := by
  simp only [State.onPort, List.modify_modify_eq]

/-- Everything a port's step can do: nothing, an acceptance of an idle port, the next micro-step of its command. -/
theorem portStep_does {s t : State} (h : s.portStep = .next t) :
    t = s ∨ (s.idle ∧ ∃ f, Port.Accepts f ∧ t = s.onPort f) ∨ ∃ c, s.runs c ∧ t = c.microStep s := by
  cases hp : s.activePort with
  | none =>
    simp only [State.portStep, hp, Host.Outcome.next.injEq] at h
    exact .inl h.symm
  | some p =>
    cases hc : p.cmd with
    | some c =>
      have hr : s.runs c := (runs_iff s c).mpr ⟨p, hp, hc⟩
      rw [portStep_of_cmd hp hc, exec_of_runs hr, Host.Outcome.next.injEq] at h
      exact .inr (.inr ⟨c, hr, h.symm⟩)
    | none =>
      have hi : s.idle := (idle_iff s).mpr ⟨p, hp, hc⟩
      obtain rfl | ⟨c, hr, -⟩ | ⟨i, hidle, hexec⟩ | rfl := portStep_next_cases h
      · exact .inl rfl
      · obtain ⟨q, hq, hqc⟩ := (runs_iff s c).mp hr
        simp_all
      · rw [exec_of_idle hidle, Host.Outcome.next.injEq] at hexec
        refine .inr (.inl ⟨hi, _, fun q => .inr ⟨i, ?_⟩, hexec.symm.trans (onPort_onPort ..)⟩)
        rfl
      · refine .inr (.inl ⟨hi, _, fun q => .inl ?_, onPort_onPort ..⟩)
        rfl

/-- A port's step changes the list of ports at the active port only. -/
theorem portStep_ports {s t : State} (h : s.portStep = .next t) : ∃ f, t.ports = s.ports.modify s.active f := by
  obtain rfl | ⟨-, f, -, rfl⟩ | ⟨c, -, rfl⟩ := portStep_does h
  · exact ⟨id, by simp⟩
  · exact ⟨f, rfl⟩
  · obtain ⟨u, f, ht, hw, -⟩ := microStep_does c s
    exact ⟨f, by rw [ht, State.onPort_ports, hw.ports.1, hw.ports.2]⟩

/-- Settles O8: a port's step modifies the entry of the active port and no other. -/
theorem portStepsAreIsolated : Obligations.PortStepsAreIsolated := by
  intro s t p q hturn h hq
  rw [step_of_port hturn] at h
  obtain ⟨f, hf⟩ := portStep_ports h
  simp only [hf, State.turnTaken_ports]
  exact ⟨List.length_modify .., by rw [List.getElem?_modify_ne _ _ hq.symm]⟩

end Sys2Proof.Machine

/-! PROOFS. The counter's span (R40), and soundness over every step (R30, R31, R50). -/

namespace Sys2Proof.Machine

/-! ### Samples within the span (R40) -/

/-- A sample moves the counter by the cycles it adds to the lapse, within its bounds. -/
theorem sampleWithin_span {s : State} {least ceiling : Nat} (h : s.lapse + least ≤ ceiling) (hc : ceiling ≤ spanLimit) :
    ((s.sampleWithin least ceiling).counter - s.counter).toNat = (s.sampleWithin least ceiling).lapse - s.lapse ∧
      s.lapse + least ≤ (s.sampleWithin least ceiling).lapse ∧ (s.sampleWithin least ceiling).lapse ≤ ceiling := by
  have hge := nextLapse_ge s least ceiling
  have hle := nextLapse_le s h
  refine ⟨?_, hge, hle⟩
  have hspan : spanLimit = 2147483647 := rfl
  rw [sampleWithin_counter, add_sub_cancel_left, BitVec.toNat_ofNat, State.sampleWithin_lapse, Nat.mod_eq_of_lt]
  omega

/-- Settles O26: `sampleWithin_span` with the bounds of each of the three samples. -/
theorem samplesAdvanceWithinTheirBounds : Obligations.SamplesAdvanceWithinTheirBounds := by
  intro s hs
  obtain ⟨hcount, hge, hle⟩ := sampleWithin_span (s := s) (least := 0) hs.le le_rfl
  obtain ⟨hcount', hge', hle'⟩ := sampleWithin_span (s := s) (least := 1) hs le_rfl
  refine ⟨hcount, hle, hge, hcount', hle', hge', fun hen => ?_, fun hen => ?_⟩
  · rw [State.sampleBeforeSweeps, if_pos hen, State.sample]
  · have hceil : s.lapse + 0 ≤ spanLimit - 1 := by omega
    obtain ⟨-, hge'', hle''⟩ := sampleWithin_span hceil (Nat.sub_le ..)
    rw [State.sampleBeforeSweeps, if_neg hen]
    exact ⟨hge'', by omega⟩

/-- What is as it was or sampled once keeps the span and accounts for its cycles. -/
theorem State.SameOrSampled.span {s t : State} (h : s.SameOrSampled t) (hs : s.lapse ≤ spanLimit) :
    t.lapse ≤ spanLimit ∧ t.lapse = s.lapse + (t.counter - s.counter).toNat := by
  obtain ⟨hcounter, hlapse⟩ | ⟨hcounter, hlapse⟩ := h
  · rw [hcounter, hlapse]
    simpa using hs
  · obtain ⟨hcount, hge, hle⟩ := sampleWithin_span (s := s) (least := 0) hs le_rfl
    rw [hcounter, hlapse, State.sample, hcount]
    omega

/-! ### Masks of 17 bits (R30) -/

theorem maskFits_iff (m : Word) : maskFits m ↔ ∀ i, maskBit m i = true → i < 17 := by
  refine ⟨fun h i hi => ?_, fun h => Nat.lt_pow_two_of_testBit _ fun i hi => ?_⟩
  · by_contra hge
    have hpow : 2 ^ 17 ≤ 2 ^ i := Nat.pow_le_pow_right (by norm_num) (by omega)
    have hfalse : m.toNat.testBit i = false := Nat.testBit_lt_two_pow (lt_of_lt_of_le h hpow)
    rw [maskBit, BitVec.getLsbD, hfalse] at hi
    exact absurd hi (by simp)
  · by_contra hbit
    exact absurd (h i (by simpa [maskBit, BitVec.getLsbD] using hbit)) (by simpa [numChannels] using hi)

theorem maskFits_mono {m n : Word} (h : maskFits m) (hn : ∀ i, maskBit n i = true → maskBit m i = true) :
    maskFits n := (maskFits_iff n).mpr fun i hi => (maskFits_iff m).mp h i (hn i hi)

theorem maskFits_setBit {m : Word} {i : Nat} (h : maskFits m) (hi : i ≤ 16) : maskFits (setBit m i) := by
  refine (maskFits_iff _).mpr fun j hj => ?_
  simp only [maskBit_setBit, Bool.or_eq_true, Bool.and_eq_true, decide_eq_true_eq] at hj
  obtain hj | ⟨-, rfl⟩ := hj
  · exact (maskFits_iff m).mp h j hj
  · omega

/-! ### What keeps a state sound -/

/-- `t` has no bit in its masks that `s` does not account for, and takes no period away. -/
structure State.Within (s t : State) : Prop where
  cfg : t.cfg = s.cfg
  ports : t.ports = s.ports
  firstActivePin : t.firstActivePin = s.firstActivePin
  lastActivePin : t.lastActivePin = s.lastActivePin
  period : ∀ i, (s.chan i).period ≠ 0 → (t.chan i).period ≠ 0
  enabled : ∀ i, maskBit t.enabled i = true → maskBit s.enabled i = true
  level : ∀ i, maskBit t.level i = true → maskBit s.level i = true ∨ maskBit s.enabled i = true
  toEnable : t.toEnable = s.toEnable
  toDisable : t.toDisable = s.toDisable

theorem State.SameTable.within {s t : State} (h : s.SameTable t) : s.Within t where
  cfg := h.cfg
  ports := h.ports
  firstActivePin := h.firstActivePin
  lastActivePin := h.lastActivePin
  period i hi := by rwa [chan_eq_of_channels h.channels]
  enabled i hi := by rwa [← h.enabled]
  level i hi := .inl (by rwa [← h.level])
  toEnable := h.toEnable
  toDisable := h.toDisable

theorem State.Within.refl (s : State) : s.Within s :=
  (State.SameTable.refl s).within

theorem State.Within.trans {s t u : State} (h : s.Within t) (h' : t.Within u) : s.Within u where
  cfg := h'.cfg.trans h.cfg
  ports := h'.ports.trans h.ports
  firstActivePin := h'.firstActivePin.trans h.firstActivePin
  lastActivePin := h'.lastActivePin.trans h.lastActivePin
  period i hi := h'.period i (h.period i hi)
  enabled i hi := h.enabled i (h'.enabled i hi)
  level i hi := (h'.level i hi).elim (h.level i) fun hen => .inr (h.enabled i hen)
  toEnable := h'.toEnable.trans h.toEnable
  toDisable := h'.toDisable.trans h.toDisable

/-- The tests a command has passed stay passed where the configuration is kept and no period taken away. -/
theorem commandSound_mono {s t : State} {c : Command} (hcfg : t.cfg = s.cfg)
    (hperiod : ∀ i, (s.chan i).period ≠ 0 → (t.chan i).period ≠ 0) (h : s.commandSound c) : t.commandSound c := by
  cases c with
  | start pin duty period run k =>
    exact ⟨fun hk => by simpa only [State.startRefuses, hcfg] using h.1 hk, fun hk => hperiod _ (h.2 hk)⟩
  | stop pin k => exact h
  | setaux fn k => trivial
  | clraux k => trivial

theorem State.Sound.within {s t : State} (h : s.Sound) (w : s.Within t) (hlapse : t.lapse ≤ spanLimit) : t.Sound where
  cfgValid := by rw [w.cfg]; exact h.cfgValid
  portCount := by rw [w.cfg, w.ports]; exact h.portCount
  masksFit := by
    obtain ⟨hen, hlevel, hto, hdis⟩ := h.masksFit
    refine ⟨maskFits_mono hen w.enabled, (maskFits_iff _).mpr fun i hi => ?_, w.toEnable ▸ hto, w.toDisable ▸ hdis⟩
    exact (w.level i hi).elim ((maskFits_iff _).mp hlevel i) ((maskFits_iff _).mp hen i)
  rangeBounds i hi := by
    rw [w.firstActivePin, w.lastActivePin]
    exact h.rangeBounds i (w.enabled i hi)
  periodSet i hi := by
    rw [w.toEnable, Bool.or_eq_true] at hi
    exact w.period i (h.periodSet i (Bool.or_eq_true _ _ ▸ hi.imp_left (w.enabled i)))
  notReserved i hi := by
    rw [w.toEnable, Bool.or_eq_true] at hi
    rw [w.cfg]
    exact h.notReserved i (Bool.or_eq_true _ _ ▸ hi.imp_left (w.enabled i))
  commandsSound p hp c hc := commandSound_mono w.cfg w.period (h.commandsSound p (w.ports ▸ hp) c hc)
  lapseBound := hlapse

theorem State.Sound.onPort {s : State} {f : Port → Port} (h : s.Sound)
    (hf : ∀ p, s.activePort = some p → ∀ c, (f p).cmd = some c → s.commandSound c) : (s.onPort f).Sound where
  cfgValid := h.cfgValid
  portCount := (ports_length_onPort s f).trans h.portCount
  masksFit := h.masksFit
  rangeBounds := h.rangeBounds
  periodSet := h.periodSet
  notReserved := h.notReserved
  commandsSound p hp c hc := by
    obtain hmem | ⟨q, hq, rfl⟩ := mem_ports_onPort hp
    · exact commandSound_mono rfl (fun _ => id) (h.commandsSound p hmem c hc)
    · exact commandSound_mono rfl (fun _ => id) (hf q hq c hc)
  lapseBound := h.lapseBound

/-- A request for a channel in range, not reserved and with a period keeps the state sound (R101). -/
theorem State.Sound.requestEnable {s : State} {i : Nat} (h : s.Sound) (hi : i ≤ 16)
    (hreserved : maskBit s.cfg.reservedPins i = false) (hperiod : (s.chan i).period ≠ 0) :
    (s.requestEnable i).Sound := by
  obtain ⟨hen, hlevel, hto, hdis⟩ := h.masksFit
  have requested (j : Nat) (hj : (maskBit s.enabled j || maskBit (s.requestEnable i).toEnable j) = true) :
      (maskBit s.enabled j || maskBit s.toEnable j) = true ∨ j = i := by
    simp only [State.requestEnable_toEnable, maskBit_setBit, Bool.or_eq_true, Bool.and_eq_true, decide_eq_true_eq] at hj ⊢
    tauto
  exact
    { cfgValid := h.cfgValid
      portCount := h.portCount
      masksFit := ⟨hen, hlevel, maskFits_setBit hto hi, hdis⟩
      rangeBounds := h.rangeBounds
      periodSet := fun j hj => (requested j hj).elim (h.periodSet j) fun e => e ▸ hperiod
      notReserved := fun j hj => (requested j hj).elim (h.notReserved j) fun e => e ▸ hreserved
      commandsSound := fun p hp c hc => commandSound_mono rfl (fun _ => id) (h.commandsSound p hp c hc)
      lapseBound := h.lapseBound }

theorem State.Sound.requestDisable {s : State} {i : Nat} (h : s.Sound) (hi : i ≤ 16) : (s.requestDisable i).Sound := by
  obtain ⟨hen, hlevel, hto, hdis⟩ := h.masksFit
  exact
    { cfgValid := h.cfgValid
      portCount := h.portCount
      masksFit := ⟨hen, hlevel, hto, maskFits_setBit hdis hi⟩
      rangeBounds := h.rangeBounds
      periodSet := h.periodSet
      notReserved := h.notReserved
      commandsSound := fun p hp c hc => commandSound_mono rfl (fun _ => id) (h.commandsSound p hp c hc)
      lapseBound := h.lapseBound }

/-! ### Soundness over a port's step -/

/-- What a sound command writes keeps the state sound. -/
theorem Command.Writes.sound {s u : State} {c : Command} (hw : c.Writes s u) (h : s.Sound) (hc : s.commandSound c) :
    u.Sound := by
  cases hw with
  | registers table _ time => exact h.within table.within (time.span h.lapseBound).1
  | @record pin duty period run k ch period_eq _ =>
    refine h.within { State.Within.refl s with period := fun i hi => ?_ } h.lapseBound
    obtain hsame | ⟨hvalid, hnew⟩ := period_eq
    · exact period_setChan hsame hi
    · obtain ⟨-, -, hperiod⟩ := startRefuses_eq_false.mp (hc.1 hvalid)
      rw [chan_setChan]
      split
      · rwa [hnew]
      · exact hi
  | requestEnable =>
    obtain ⟨hpin, hreserved, -⟩ := startRefuses_eq_false.mp (hc.1 rfl)
    exact h.requestEnable hpin hreserved (hc.2 rfl)
  | requestDisable => exact h.requestDisable (hc rfl)

/-- The command a port begins with has passed no test yet, and needs none. -/
theorem commandSound_first (s : State) (i : Instr) : s.commandSound (Command.first i) := by
  cases i with
  | start pin duty period run => exact ⟨nofun, nofun⟩
  | stop pin => exact nofun
  | setaux fn => trivial
  | clraux => trivial

theorem microStep_sound {s : State} {c : Command} (h : s.Sound) (hr : s.runs c) : (c.microStep s).Sound := by
  obtain ⟨u, f, ht, hw, hl⟩ := microStep_does c s
  rw [ht]
  obtain ⟨p, hp, hpc⟩ := (runs_iff s c).mp hr
  have hc : s.commandSound c := h.commandsSound p (List.mem_of_getElem? hp) c hpc
  have hup : u.activePort = some p := by rwa [State.activePort, hw.ports.1, hw.ports.2]
  refine (hw.sound h hc).onPort fun q hq c' hc' => ?_
  obtain rfl : p = q := Option.some.inj (hup.symm.trans hq)
  cases hl with
  | holds same =>
    obtain rfl : c = c' := Option.some.inj (hpc.symm.trans hc')
    rwa [same]
  | goesOn moves =>
    obtain rfl := Option.some.inj hc'
    exact moves.sound hc
  | returns b _ => exact absurd hc' nofun

theorem Port.Accepts.sound {s : State} {f : Port → Port} (hf : Port.Accepts f) (h : s.Sound) : (s.onPort f).Sound :=
  h.onPort fun p _ c hc => by
    obtain hnone | ⟨i, hi⟩ := hf p
    · rw [hnone] at hc
      exact absurd hc nofun
    · obtain rfl := Option.some.inj (hi.symm.trans hc)
      exact commandSound_first s i

theorem portStep_sound {s t : State} (h : s.Sound) (hstep : s.portStep = .next t) : t.Sound := by
  obtain rfl | ⟨-, f, hf, rfl⟩ | ⟨c, hr, rfl⟩ := portStep_does hstep
  · exact h
  · exact hf.sound h
  · exact microStep_sound h hr

/-! ### Soundness over a pass -/

/-- A service writes no period (R125). -/
theorem service_period {s t : State} {i : Nat} {cand cand' : Word} (h : s.service i cand = some (t, cand')) (j : Nat) :
    (t.chan j).period = (s.chan j).period := by
  by_cases hj : j = i
  · subst hj
    by_cases hlt : j < 17
    · obtain ⟨k, hk⟩ := (service_effect h).record hlt
      rw [hk, prepared_period]
    · rw [chan_of_ge t (by omega), chan_of_ge s (by omega)]
  · rw [(service_effect h).others j hj]

/-- A service enables no channel (R133). -/
theorem service_enabled {s t : State} {i : Nat} {cand cand' : Word} (h : s.service i cand = some (t, cand')) {j : Nat}
    (hj : maskBit t.enabled j = true) : maskBit s.enabled j = true := by
  rw [(service_effect h).enabled] at hj
  split at hj
  · rw [maskBit_clearBit, Bool.and_eq_true] at hj
    exact hj.1
  · exact hj

/-- The service of an enabled channel stays within the state it began in. -/
theorem service_within {s t : State} {i : Nat} {cand cand' : Word} (hen : maskBit s.enabled i = true)
    (h : s.service i cand = some (t, cand')) : s.Within t where
  cfg := (service_effect h).cfg
  ports := (service_effect h).ports
  firstActivePin := (service_effect h).firstActivePin
  lastActivePin := (service_effect h).lastActivePin
  period j hj := by rwa [service_period h]
  enabled j hj := service_enabled h hj
  level j hj := by
    by_cases hij : j = i
    · exact .inr (hij ▸ hen)
    · exact .inl ((service_effect h).level j hij ▸ hj)
  toEnable := (service_effect h).toEnable
  toDisable := (service_effect h).toDisable

theorem serviceLoop_within {s t : State} {entry cand : Word} (h : s.serviceLoop entry = some (t, cand)) : s.Within t :=
  serviceLoop_keeps (s.Within ·) (fun _ _ _ _ _ hen hv hserv => hv.trans (service_within hen hserv))
    (fun v hv => hv.trans (sameTable_sampleWithin v ..).within) h (.refl s)

/-- After step 1 a pass stays within the state that step 1 leaves. -/
theorem pass_within {s t : State} (h : s.pass = some t) : s.enterPass.applyRequests.Within t := by
  obtain ⟨u, cand, hloop, htable⟩ := pass_sweeps h
  have hsample : s.enterPass.applyRequests.Within s.beforeSweeps := (sameTable_sampleWithin ..).within
  exact (hsample.trans (serviceLoop_within hloop)).trans htable.within

/-- A pass ends at a new anchor (R137). -/
theorem pass_lapse {s t : State} (h : s.pass = some t) : t.lapse = 0 := by
  obtain ⟨u, cand, -, rfl⟩ := pass_some h
  exact State.rearm_lapse ..

/-- APPLY enables requested channels only, and RANGE bounds what it leaves enabled (R122, R123). -/
theorem State.Sound.apply {s : State} (h : s.Sound) : s.apply.Sound := by
  have folded {i : Nat} (hi : maskBit s.apply.enabled i = true) :
      (maskBit s.enabled i || maskBit s.toEnable i) = true := by
    simp only [State.apply_enabled, maskBit_fold, Bool.or_eq_true, Bool.and_eq_true] at hi ⊢
    exact hi.imp_left And.left
  have claimed {i : Nat} (hi : (maskBit s.apply.enabled i || maskBit s.apply.toEnable i) = true) :
      (maskBit s.enabled i || maskBit s.toEnable i) = true := by
    have hz : maskBit 0 i = false := maskBit_zero i
    rw [State.apply_toEnable, hz, Bool.or_false] at hi
    exact folded hi
  have chan (i : Nat) : s.apply.chan i = s.chan i := chan_eq_of_channels (State.apply_channels s) i
  obtain ⟨hen, hlevel, hto, hdis⟩ := h.masksFit
  have zeroFits : maskFits 0 := by unfold maskFits; decide
  refine
    { cfgValid := by rw [State.apply_cfg]; exact h.cfgValid
      portCount := by rw [State.apply_ports, State.apply_cfg]; exact h.portCount
      masksFit := ⟨(maskFits_iff _).mpr fun i hi => ?_, maskFits_mono hlevel fun i hi => ?_, ?_, ?_⟩
      rangeBounds := fun i hi => recomputeRange_bounds _ (by rwa [State.apply, State.recomputeRange_enabled] at hi)
      periodSet := fun i hi => by rw [chan]; exact h.periodSet i (claimed hi)
      notReserved := fun i hi => by rw [State.apply_cfg]; exact h.notReserved i (claimed hi)
      commandsSound := fun p hp c hc => ?_
      lapseBound := by rw [State.apply_lapse]; exact h.lapseBound }
  · obtain hi | hi := Bool.or_eq_true _ _ ▸ folded hi
    · exact (maskFits_iff _).mp hen i hi
    · exact (maskFits_iff _).mp hto i hi
  · rw [State.apply_level, maskBit_and_not, Bool.and_eq_true] at hi
    exact hi.1
  · rw [State.apply_toEnable]; exact zeroFits
  · rw [State.apply_toDisable]; exact zeroFits
  · rw [State.apply_ports] at hp
    exact commandSound_mono (State.apply_cfg s) (fun i hi => by rwa [chan]) (h.commandsSound p hp c hc)

theorem State.Sound.applyRequests {s : State} (h : s.Sound) : s.applyRequests.Sound := by
  unfold State.applyRequests
  split
  · exact h.apply
  · exact h

theorem State.Sound.enterPass {s : State} (h : s.Sound) : s.enterPass.Sound :=
  h.within (sameTable_enterPass s).within (Nat.zero_le _)

theorem pass_sound {s t : State} (h : s.Sound) (hpass : s.pass = some t) : t.Sound :=
  h.enterPass.applyRequests.within (pass_within hpass) ((pass_lapse hpass).trans_le (Nat.zero_le _))

theorem State.Sound.sample {s : State} (h : s.Sound) : s.sample.Sound :=
  h.within (sameTable_sampleWithin s ..).within (sampleWithin_span h.lapseBound le_rfl).2.2

theorem dispatchStep_sound {s t : State} (h : s.Sound) (hstep : s.dispatchStep = .next t) : t.Sound := by
  obtain rfl | rfl | ⟨-, hpass⟩ := dispatchStep_next_cases hstep
  · exact h
  · exact h.sample
  · exact pass_sound h.sample hpass

/-- Settles O57: by the agent whose turn it is. A port's step writes what its command has been validated for; a pass folds the
requests in and then stays within the state that leaves. -/
theorem stepKeepsTheMachineSound : Obligations.StepKeepsTheMachineSound := by
  intro s t h hstep
  have hlapse : s.turnTaken.lapse ≤ spanLimit := (State.turnTaken_lapse s).trans_le h.lapseBound
  obtain ⟨p, -, hport⟩ | ⟨-, hdispatch⟩ := step_next_cases hstep
  · exact portStep_sound (h.within (sameTable_turn s p).within hlapse) hport
  · exact dispatchStep_sound (h.within (sameTable_turnTaken s).within hlapse) hdispatch

end Sys2Proof.Machine

/-! PROOFS. Order over every step while R201 is kept (R50(d)). -/

namespace Sys2Proof.Machine

/-! ### Who prepares and who requests a channel -/

theorem prepares_iff (c : Command) (i : Nat) : c.prepares i = true ↔
    ∃ pin duty period run k, c = .start pin duty period run k ∧ pinIndex pin = i ∧ k.preparing = true := by
  cases c <;> simp [Command.prepares]

theorem requests_iff (c : Command) (i : Nat) : c.requests i = true ↔
    ∃ pin duty period run k, c = .start pin duty period run k ∧ pinIndex pin = i ∧ k.requesting = true := by
  cases c <;> simp [Command.requests]

/-- No START does both at once. -/
theorem requests_of_prepares {c : Command} {i : Nat} (h : c.prepares i = true) : c.requests i = false := by
  obtain ⟨pin, duty, period, run, k, rfl, rfl, hk⟩ := (prepares_iff c i).mp h
  cases k <;> simp_all [StartStep.preparing, StartStep.requesting, Command.requests]

/-- The command a port begins with has no claim on a channel yet. -/
theorem prepares_first (i : Instr) (j : Nat) : (Command.first i).prepares j = false := by
  cases i <;> simp [Command.first, Command.prepares, StartStep.preparing]

/-- A command with a claim on channel `i` is a START for it. -/
theorem startsOn_of_claim {s : State} {q i : Nat} {p : Port} {c : Command} (hp : s.ports[q]? = some p)
    (hc : p.cmd = some c) (h : c.requests i = true ∨ c.prepares i = true) : s.startsOn q i := by
  rw [requests_iff, prepares_iff] at h
  obtain ⟨pin, duty, period, run, k, rfl, hi, -⟩ | ⟨pin, duty, period, run, k, rfl, hi, -⟩ := h
  all_goals exact ⟨p, pin, duty, period, run, k, hp, hc, hi⟩

/-- A port that waits for its request to enable channel `i`. -/
def State.owned (s : State) (i : Nat) : Prop := ∃ p ∈ s.ports, ∃ c, p.cmd = some c ∧ c.requests i = true

/-- Order, by the claims of the commands in progress. -/
theorem orderly_iff (s : State) : s.Orderly ↔
    (∀ i, maskBit s.enabled i = true → (s.chan i).mode ≠ .init) ∧
      (∀ i, maskBit s.toEnable i = true → s.owned i) ∧
      ∀ p ∈ s.ports, ∀ c, p.cmd = some c → ∀ i, c.prepares i = true → maskBit s.enabled i = false := by
  refine ⟨fun h => ⟨h.enabledInitialised, fun i hi => ?_, fun p hp c hc i hi => ?_⟩,
    fun ⟨hinit, howned, hprep⟩ => ⟨hinit, fun i hi => ?_, fun p hp pin duty period run k hc hk => ?_⟩⟩
  · obtain ⟨p, hp, pin, duty, period, run, k, hc, hpin, hk⟩ := h.requestOwned i hi
    exact ⟨p, hp, _, hc, (requests_iff ..).mpr ⟨pin, duty, period, run, k, rfl, hpin, hk⟩⟩
  · obtain ⟨pin, duty, period, run, k, rfl, rfl, hk⟩ := (prepares_iff c i).mp hi
    exact h.preparedDisabled p hp pin duty period run k hc hk
  · obtain ⟨p, hp, c, hc, hreq⟩ := howned i hi
    obtain ⟨pin, duty, period, run, k, rfl, hpin, hk⟩ := (requests_iff c i).mp hreq
    exact ⟨p, hp, pin, duty, period, run, k, hc, hpin, hk⟩
  · exact hprep p hp _ hc _ ((prepares_iff ..).mpr ⟨pin, duty, period, run, k, rfl, rfl, hk⟩)

/-! ### What keeps a state orderly -/

/-- Writes that keep the ports and `enabled`, request nothing and put no enabled channel in `Init` keep order. -/
theorem State.Orderly.mono {s t : State} (h : s.Orderly) (hports : t.ports = s.ports) (hen : t.enabled = s.enabled)
    (hto : t.toEnable = s.toEnable)
    (hmode : ∀ i, maskBit s.enabled i = true → (t.chan i).mode = .init → (s.chan i).mode = .init) : t.Orderly := by
  obtain ⟨hinit, howned, hprep⟩ := (orderly_iff s).mp h
  refine (orderly_iff t).mpr ⟨fun i hi hm => ?_, fun i hi => ?_, fun p hp c hc i hi => ?_⟩
  · rw [hen] at hi
    exact hinit i hi (hmode i hi hm)
  · rw [hto] at hi
    rw [State.owned, hports]
    exact howned i hi
  · rw [hports] at hp
    rw [hen]
    exact hprep p hp c hc i hi

theorem State.Orderly.sameTable {s t : State} (h : s.Orderly) (w : s.SameTable t) : t.Orderly :=
  h.mono w.ports w.enabled w.toEnable fun i _ hm => by rwa [chan_eq_of_channels w.channels] at hm

/-- A port of the old list stays in the changed one, or it is the active port changed. -/
theorem mem_onPort_of_mem {s : State} {p : Port} (f : Port → Port) (h : p ∈ s.ports) :
    p ∈ (s.onPort f).ports ∨ (s.activePort = some p ∧ f p ∈ (s.onPort f).ports) := by
  obtain ⟨n, hn⟩ := List.mem_iff_getElem?.mp h
  by_cases ha : n = s.active
  · subst ha
    exact .inr ⟨hn, List.mem_of_getElem? (by rw [ports_onPort_active, hn, Option.map_some])⟩
  · exact .inl (List.mem_of_getElem? ((ports_onPort_of_ne s f ha).trans hn))

/-- The active port may move where it keeps its claim on a request still pending and prepares no enabled channel. -/
theorem State.Orderly.onPort {s : State} {f : Port → Port} (h : s.Orderly)
    (hreq : ∀ p, s.activePort = some p → ∀ c, p.cmd = some c → ∀ i, c.requests i = true → maskBit s.toEnable i = true →
      ∃ c', (f p).cmd = some c' ∧ c'.requests i = true)
    (hprep : ∀ p, s.activePort = some p → ∀ c', (f p).cmd = some c' → ∀ i, c'.prepares i = true →
      maskBit s.enabled i = false) : (s.onPort f).Orderly := by
  obtain ⟨hinit, howned, hprepared⟩ := (orderly_iff s).mp h
  refine (orderly_iff _).mpr ⟨hinit, fun i hi => ?_, fun p hp c hc i hi => ?_⟩
  · obtain ⟨p, hp, c, hc, hci⟩ := howned i hi
    obtain hmem | ⟨hact, hmem⟩ := mem_onPort_of_mem f hp
    · exact ⟨p, hmem, c, hc, hci⟩
    · exact ⟨f p, hmem, hreq p hact c hc i hci hi⟩
  · obtain hmem | ⟨q, hq, rfl⟩ := mem_ports_onPort hp
    · exact hprepared p hmem c hc i hi
    · exact hprep q hq c hc i hi

/-- A request that a START waits for keeps order. -/
theorem State.Orderly.requestEnable {s : State} {i : Nat} (h : s.Orderly) (howner : s.owned i) :
    (s.requestEnable i).Orderly := by
  obtain ⟨hinit, howned, hprep⟩ := (orderly_iff s).mp h
  refine (orderly_iff _).mpr ⟨hinit, fun j hj => ?_, hprep⟩
  by_cases hji : j = i
  · rw [hji]
    exact howner
  · exact howned j (by rwa [State.requestEnable_toEnable, maskBit_setBit_of_ne _ hji] at hj)

/-! ### Order over a port's step -/

/-- The active port moves on as its command leads (R101). -/
theorem Command.Leads.orderly {s u : State} {c : Command} {f : Port → Port} {p : Port} (hl : c.Leads s u f)
    (hp : u.activePort = some p) (hpc : p.cmd = some c) (h : u.Orderly) : (u.onPort f).Orderly := by
  obtain ⟨-, -, hprepared⟩ := (orderly_iff u).mp h
  have prepared := hprepared p (List.mem_of_getElem? hp) c hpc
  refine h.onPort (fun q hq c₀ hc₀ i hreq hto => ?_) fun q hq c' hc' i hprep => ?_ <;>
    obtain rfl : p = q := Option.some.inj (hp.symm.trans hq)
  · obtain rfl : c = c₀ := Option.some.inj (hpc.symm.trans hc₀)
    cases hl with
    | holds same => exact ⟨c, hpc, hreq⟩
    | goesOn moves =>
      obtain hgoes | hdone := moves.requests i hreq
      · exact ⟨_, rfl, hgoes⟩
      · exact absurd hto (by simp [hdone])
    | returns b idle => exact absurd hreq (by simp [idle i])
  · cases hl with
    | holds same =>
      obtain rfl : c = c' := Option.some.inj (hpc.symm.trans hc')
      exact prepared i hprep
    | goesOn moves =>
      obtain rfl := Option.some.inj hc'
      exact (moves.prepares i hprep).elim (prepared i) id
    | returns b _ => exact absurd hc' nofun

/-- START sets its request bit and waits for it (R101, S7). -/
theorem requestEnable_orderly {s : State} {pin : Pin} {duty period run : Word} {p : Port}
    (hp : s.activePort = some p) (hpc : p.cmd = some (.start pin duty period run .s7)) (h : s.Orderly) :
    ((Command.start pin duty period run .s7).microStep s).Orderly := by
  let waits : Command := .start pin duty period run .s8
  have hgoto : (s.goto waits).Orderly :=
    h.onPort (fun q hq c hc i hreq _ => by
      obtain rfl : p = q := Option.some.inj (hp.symm.trans hq)
      obtain rfl := Option.some.inj (hpc.symm.trans hc)
      exact absurd hreq (by simp [Command.requests, StartStep.requesting])) fun q _ c' hc' i hprep => by
      obtain rfl := Option.some.inj hc'
      exact absurd hprep (by simp [waits, Command.prepares, StartStep.preparing])
  obtain ⟨q, hq, hqc⟩ := (runs_iff _ _).mp (runs_goto (hp ▸ Option.some_ne_none p) waits)
  exact hgoto.requestEnable
    ⟨q, List.mem_of_getElem? hq, waits, hqc, by simp [waits, Command.requests, StartStep.requesting]⟩

theorem microStep_orderly {s : State} {c : Command} (h : s.Orderly) (hr : s.runs c) : (c.microStep s).Orderly := by
  obtain ⟨p, hp, hpc⟩ := (runs_iff s c).mp hr
  obtain ⟨-, -, hprepared⟩ := (orderly_iff s).mp h
  have prepared := hprepared p (List.mem_of_getElem? hp) c hpc
  obtain ⟨u, f, ht, hw, hl⟩ := microStep_does c s
  have hup : u.activePort = some p := by rwa [State.activePort, hw.ports.1, hw.ports.2]
  have moved (hu : u.Orderly) : (c.microStep s).Orderly := ht ▸ hl.orderly hup hpc hu
  cases hw with
  | registers table _ _ => exact moved (h.sameTable table)
  | @record pin duty period run k ch _ mode_init =>
    refine moved (h.mono rfl rfl rfl fun i hi hm => ?_)
    rw [chan_setChan] at hm
    split at hm
    · rename_i hpin
      obtain ⟨rfl, -⟩ := hpin
      refine (mode_init hm).resolve_right fun hk => ?_
      exact absurd hi (by simp [prepared (pinIndex pin) (by simp [Command.prepares, hk])])
    · exact hm
  | requestEnable => exact requestEnable_orderly hp hpc h
  | requestDisable => exact moved (h.mono rfl rfl rfl fun _ _ => id)

theorem Port.Accepts.orderly {s : State} {f : Port → Port} (hf : Port.Accepts f) (hidle : s.idle) (h : s.Orderly) :
    (s.onPort f).Orderly := by
  obtain ⟨p, hp, hnone⟩ := (idle_iff s).mp hidle
  refine h.onPort (fun q hq c hc => ?_) fun q _ c hc i hprep => ?_
  · obtain rfl : p = q := Option.some.inj (hp.symm.trans hq)
    exact absurd (hnone.symm.trans hc) nofun
  · obtain hcmd | ⟨j, hcmd⟩ := hf q
    · exact absurd (hcmd.symm.trans hc) nofun
    · obtain rfl := Option.some.inj (hcmd.symm.trans hc)
      exact absurd hprep (by simp [prepares_first])

theorem portStep_orderly {s t : State} (h : s.Orderly) (hstep : s.portStep = .next t) : t.Orderly := by
  obtain rfl | ⟨hidle, f, hf, rfl⟩ | ⟨c, hr, rfl⟩ := portStep_does hstep
  · exact h
  · exact hf.orderly hidle h
  · exact microStep_orderly h hr

/-! ### The first sweep takes every enabled channel out of `Init` (R124, R126) -/

/-- Every enabled channel is one of the table and past `Init`. -/
def State.Initialised (s : State) : Prop := ∀ i, maskBit s.enabled i = true → i < 17 ∧ (s.chan i).mode ≠ .init

/-- A service takes its channel out of `Init` and no other into it. -/
theorem service_mode {s t : State} {i : Nat} {cand cand' : Word} (h : s.service i cand = some (t, cand')) {j : Nat}
    (hj : j < 17) (hmode : j = i ∨ (s.chan j).mode ≠ .init) : (t.chan j).mode ≠ .init := by
  by_cases hji : j = i
  · subst hji
    obtain ⟨k, hk⟩ := (service_effect h).record hj
    rw [hk]
    exact prepared_mode_ne_init (s.chan j) s.counter
  · rw [(service_effect h).others j hji]
    exact hmode.resolve_left hji

theorem service_initialised {s t : State} {i : Nat} {cand cand' : Word} (hs : s.Initialised)
    (h : s.service i cand = some (t, cand')) : t.Initialised := fun j hj =>
  have ⟨hlt, hmode⟩ := hs j (service_enabled h hj)
  ⟨hlt, service_mode h hlt (.inr hmode)⟩

/-- After the visits of a list, every enabled channel is past `Init` that was so or is in the list. -/
theorem sweepOver_initialised : ∀ (l : List Nat) (s t : State) (cand cand' : Word),
    s.sweepOver l cand = some (t, cand') →
    (∀ i, maskBit s.enabled i = true → i < 17 ∧ (i ∈ l ∨ (s.chan i).mode ≠ .init)) → t.Initialised
  | [], s, t, cand, cand', h, hs => by
    simp only [State.sweepOver, Option.some.injEq, Prod.mk.injEq] at h
    obtain ⟨rfl, -⟩ := h
    simpa [State.Initialised] using hs
  | i :: rest, s, t, cand, cand', h, hs => by
    rw [State.sweepOver] at h
    split at h
    · split at h
      · exact absurd h nofun
      · rename_i u c hu
        refine sweepOver_initialised rest u t c cand' h fun j hj => ?_
        obtain ⟨hlt, hmem⟩ := hs j (service_enabled hu hj)
        rw [List.mem_cons, or_assoc, or_left_comm] at hmem
        exact ⟨hlt, hmem.imp_right (service_mode hu hlt)⟩
    · rename_i hen
      refine sweepOver_initialised rest s t cand cand' h fun j hj => ?_
      obtain ⟨hlt, hmem⟩ := hs j hj
      rw [List.mem_cons, or_assoc] at hmem
      exact ⟨hlt, hmem.resolve_left fun hji => hen (hji ▸ hj)⟩

/-- The sweeps of a sound state's pass leave every enabled channel past `Init`. -/
theorem serviceLoop_initialised {s t : State} {entry cand : Word} (hs : s.Sound)
    (h : s.serviceLoop entry = some (t, cand)) : t.Initialised := by
  have sampled (v : State) (hv : v.Initialised) : v.sampleAfterSweep.Initialised := fun i hi => by
    have table : v.SameTable v.sampleAfterSweep := sameTable_sampleWithin ..
    rw [table.enabled] at hi
    rw [chan_eq_of_channels table.channels]
    exact hv i hi
  have sweep {v : State} {c : Word} (hv : s.sweep = some (v, c)) : v.Initialised :=
    sweepOver_initialised _ s v _ c hv fun i hi =>
      ⟨(maskFits_iff _).mp hs.masksFit.1 i hi, .inl ((mem_scanRange s i).mpr (hs.rangeBounds i hi))⟩
  unfold State.serviceLoop at h
  split at h
  · rename_i hzero
    obtain ⟨rfl, -⟩ := Prod.mk.inj (Option.some.inj h)
    intro i hi
    exact absurd (hzero ▸ hi) (by simp)
  · generalize sweepFuel = fuel at h
    cases fuel with
    | zero => exact absurd h nofun
    | succ fuel =>
      rw [State.sweeps] at h
      split at h
      · exact absurd h nofun
      · rename_i v c hv
        have hvi := sampled v (sweep hv)
        split at h
        · exact sweeps_keeps State.Initialised (fun _ _ _ _ _ _ hu => service_initialised hu) sampled entry fuel _ t cand h hvi
        · obtain ⟨rfl, -⟩ := Prod.mk.inj (Option.some.inj h)
          exact hvi

/-! ### Order over a pass -/

/-- The sweeps of a sound state's pass begin in a sound state. -/
theorem State.Sound.beforeSweeps {s : State} (h : s.Sound) : s.beforeSweeps.Sound :=
  h.enterPass.applyRequests.within (sameTable_sampleWithin ..).within (beforeSweeps_time s).2.1

/-- Only a channel that was enabled or requested is enabled after a pass (R122, R133). -/
theorem pass_enabled {s t : State} (h : s.pass = some t) {i : Nat} (hi : maskBit t.enabled i = true) :
    maskBit s.enabled i = true ∨ maskBit s.toEnable i = true := by
  have hfold : maskBit s.enterPass.applyRequests.enabled i = true := (pass_within h).enabled i hi
  rw [applyRequests_enabled, maskBit_fold, Bool.or_eq_true, Bool.and_eq_true] at hfold
  exact hfold.imp_left And.left

theorem pass_orderly {s t : State} (hs : s.Sound) (h : s.Orderly) (hone : s.oneStartPerPin) (hpass : s.pass = some t) :
    t.Orderly := by
  obtain ⟨-, howned, hprep⟩ := (orderly_iff s).mp h
  obtain ⟨u, cand, hloop, htable⟩ := pass_sweeps hpass
  have hinit := serviceLoop_initialised hs.beforeSweeps hloop
  refine (orderly_iff t).mpr ⟨fun i hi => ?_, fun i hi => ?_, fun p hp c hc i hi => ?_⟩
  · rw [htable.enabled] at hi
    rw [chan_eq_of_channels htable.channels]
    exact (hinit i hi).2
  · rw [(pass_within hpass).toEnable, (applyRequests_requests _).1] at hi
    exact absurd hi (by simp)
  · have hports : s.enterPass.applyRequests.ports = s.ports :=
      applyRequests_keeps (·.ports) State.apply_ports s.enterPass
    rw [(pass_within hpass).ports, hports] at hp
    by_contra hen
    obtain hen | hto := pass_enabled hpass (eq_true_of_ne_false hen)
    · exact absurd hen (by simp [hprep p hp c hc i hi])
    · obtain ⟨p', hp', c', hc', hreq⟩ := howned i hto
      obtain ⟨q, hq⟩ := List.mem_iff_getElem?.mp hp
      obtain ⟨q', hq'⟩ := List.mem_iff_getElem?.mp hp'
      obtain rfl := hone q q' i (startsOn_of_claim hq hc (.inr hi)) (startsOn_of_claim hq' hc' (.inl hreq))
      obtain rfl : p = p' := Option.some.inj (hq.symm.trans hq')
      obtain rfl : c = c' := Option.some.inj (hc.symm.trans hc')
      exact absurd hreq (by simp [requests_of_prepares hi])

theorem oneStartPerPin_congr {s t : State} (h : t.ports = s.ports) (hs : s.oneStartPerPin) : t.oneStartPerPin := by
  intro q r i hq hr
  simp only [State.startsOn, h] at hq hr
  exact hs q r i hq hr

theorem dispatchStep_orderly {s t : State} (hs : s.Sound) (h : s.Orderly) (hone : s.oneStartPerPin)
    (hstep : s.dispatchStep = .next t) : t.Orderly := by
  have table : s.SameTable s.sample := sameTable_sampleWithin ..
  obtain rfl | rfl | ⟨-, hpass⟩ := dispatchStep_next_cases hstep
  · exact h
  · exact h.sameTable table
  · exact pass_orderly hs.sample (h.sameTable table) (oneStartPerPin_congr table.ports hone) hpass

/-- Settles O58: by the agent whose turn it is. A port puts in `Init` only the channel it prepares, which is not enabled; the
first sweep of a pass takes every enabled channel out of `Init`, and a channel one START prepares is by R201 not requested by
another. -/
theorem stepKeepsEnabledChannelsInitialised : Obligations.StepKeepsEnabledChannelsInitialised := by
  intro s t hs h hone hstep _
  have hlapse : s.turnTaken.lapse ≤ spanLimit := (State.turnTaken_lapse s).trans_le hs.lapseBound
  obtain ⟨p, -, hport⟩ | ⟨-, hdispatch⟩ := step_next_cases hstep
  · exact portStep_orderly (h.sameTable (sameTable_turn s p)) hport
  · have table := sameTable_turnTaken s
    exact dispatchStep_orderly (hs.within table.within hlapse) (h.sameTable table) (oneStartPerPin_congr table.ports hone)
      hdispatch

end Sys2Proof.Machine

/-! PROOFS. Infinite channels and the span over a pass (R24, R40, R133), the state after reset (R186), the state-field
numbers (R49). -/

namespace Sys2Proof.Machine

/-! ### A pass over an Infinite channel (R24, R70, R133) -/

/-- Channel `i` is Infinite, with this expiry and this enabled bit. -/
def State.InfiniteWith (i : Nat) (expiry : Word) (enabled : Bool) (s : State) : Prop :=
  (s.chan i).mode = .infinite ∧ (s.chan i).expiry = expiry ∧ maskBit s.enabled i = enabled

theorem State.InfiniteWith.sameTable {i : Nat} {expiry : Word} {enabled : Bool} {s t : State}
    (h : s.InfiniteWith i expiry enabled) (w : s.SameTable t) : t.InfiniteWith i expiry enabled := by
  rw [State.InfiniteWith, chan_eq_of_channels w.channels, w.enabled]
  exact h

/-- No service reads or writes the expiry of an Infinite channel, nor disables the channel. -/
theorem service_infiniteWith {i j : Nat} {expiry : Word} {enabled : Bool} {s t : State} {cand cand' : Word}
    (hs : s.InfiniteWith i expiry enabled) (h : s.service j cand = some (t, cand')) :
    t.InfiniteWith i expiry enabled := by
  obtain ⟨hmode, hexpiry, hen⟩ := hs
  have effect := service_effect h
  by_cases hij : i = j
  · subst hij
    have hlt : i < 17 := by
      by_contra hge
      rw [chan_of_ge s (by omega)] at hmode
      exact absurd hmode nofun
    obtain ⟨k, hk⟩ := effect.record hlt
    have hkept := effect.enabled
    rw [prepared_of_infinite hmode] at hk hkept
    rw [setChan_chan, if_neg (by simp [hmode])] at hkept
    exact ⟨by rw [hk]; exact hmode, by rw [hk]; exact hexpiry, by rw [hkept, hen]⟩
  · refine ⟨by rw [effect.others i hij, hmode], by rw [effect.others i hij, hexpiry], ?_⟩
    rw [effect.enabled]
    split
    · rw [maskBit_clearBit_of_ne _ hij, hen]
    · exact hen

/-- Settles O48: the requests are folded in, and then every service and every sample keeps the channel's mode, expiry and
enabled bit. -/
theorem passIgnoresTheExpiryOfInfiniteChannels : Obligations.PassIgnoresTheExpiryOfInfiniteChannels := by
  intro s t h i hmode
  obtain ⟨u, cand, hloop, htable⟩ := pass_sweeps h
  have hbegin : s.beforeSweeps.InfiniteWith i (s.chan i).expiry (s.folded i) := by
    rw [State.InfiniteWith, beforeSweeps_chan, beforeSweeps_enabled, maskBit_fold]
    exact ⟨hmode, rfl, rfl⟩
  have hend := serviceLoop_keeps (State.InfiniteWith i _ _) (fun _ _ _ _ _ _ hv => service_infiniteWith hv)
    (fun v hv => hv.sameTable (sameTable_sampleWithin v ..)) hloop hbegin
  exact (hend.sameTable htable).2

/-! ### The span of a pass (R40, R64) -/

/-- The latest sample lies `lapse` cycles after the entry of the pass, within the span. -/
def State.InSpan (entry : Word) (s : State) : Prop := s.counter = entry + BitVec.ofNat 32 s.lapse ∧ s.lapse ≤ spanLimit

theorem State.InSpan.sampleWithin {entry : Word} {s : State} {least : Nat} (h : s.InSpan entry)
    (hle : s.lapse + least ≤ spanLimit) : (s.sampleWithin least spanLimit).InSpan entry :=
  ⟨sampleWithin_counter_of_anchor s entry _ _ h.1, nextLapse_le s hle⟩

theorem State.InSpan.elapsed {entry : Word} {s : State} (h : s.InSpan entry) : (s.counter - entry).toNat = s.lapse := by
  have hspan : spanLimit = 2147483647 := rfl
  have hlapse := h.2
  rw [h.1, add_sub_cancel_left, BitVec.toNat_ofNat, Nat.mod_eq_of_lt]
  omega

/-- At the end of the span no budget is left, so there is no further sweep (R134). -/
theorem lapse_lt_of_sweepAgain {entry cand : Word} {s : State} (h : s.InSpan entry)
    (hagain : s.sweepAgain entry cand = true) : s.lapse < spanLimit := by
  have hspan : spanLimit = 2147483647 := rfl
  have hlapse := h.2
  have helapsed := h.elapsed
  simp only [State.sweepAgain, Bool.and_eq_true, slt_iff] at hagain
  obtain ⟨-, hbudget⟩ := hagain
  have htop : signed s.cfg.tBudget < 2 ^ 31 := by
    unfold signed
    split <;> omega
  rw [signed, helapsed] at hbudget
  split at hbudget <;> omega

/-- A sweep takes no time: its samples are taken before and after it (R124). -/
theorem sweep_inSpan {entry cand : Word} {s t : State} (h : s.sweep = some (t, cand))
    (hs : s.InSpan entry ∧ s.lapse < spanLimit) : t.InSpan entry ∧ t.lapse < spanLimit :=
  sweepOver_keeps (fun v => v.InSpan entry ∧ v.lapse < spanLimit)
    (fun _ _ _ _ _ _ hv hserv => by
      rwa [State.InSpan, (service_effect hserv).counter, (service_effect hserv).lapse])
    _ s t _ cand h hs

theorem sweeps_inSpan {entry : Word} : ∀ (fuel : Nat) (s t : State) (cand : Word),
    State.sweeps entry fuel s = some (t, cand) → s.InSpan entry → s.lapse < spanLimit → t.InSpan entry
  | 0, _, _, _, h, _, _ => absurd h nofun
  | fuel + 1, s, t, cand, h, hs, hlt => by
    rw [State.sweeps] at h
    split at h
    · exact absurd h nofun
    · rename_i v c hv
      obtain ⟨hvs, hvlt⟩ := sweep_inSpan hv ⟨hs, hlt⟩
      have hafter : v.sampleAfterSweep.InSpan entry := hvs.sampleWithin hvlt
      split at h
      · rename_i hagain
        exact sweeps_inSpan fuel _ t cand h hafter (lapse_lt_of_sweepAgain hafter hagain)
      · obtain ⟨rfl, -⟩ := Prod.mk.inj (Option.some.inj h)
        exact hafter

theorem serviceLoop_inSpan {entry cand : Word} {s t : State} (h : s.serviceLoop entry = some (t, cand))
    (hs : s.InSpan entry) (hlt : s.enabled ≠ 0 → s.lapse < spanLimit) : t.InSpan entry := by
  unfold State.serviceLoop at h
  split at h
  · obtain ⟨rfl, -⟩ := Prod.mk.inj (Option.some.inj h)
    exact hs
  · rename_i hen
    exact sweeps_inSpan sweepFuel s t cand h hs (hlt hen)

theorem consultCallback_inSpan {entry : Word} {s : State} (h : s.InSpan entry) (cand : Word) :
    (s.consultCallback cand).1.InSpan entry := by
  unfold State.consultCallback
  split
  · have htaken : s.auxAnswerTaken.InSpan entry := by
      rwa [State.InSpan, State.auxAnswerTaken_counter, State.auxAnswerTaken_lapse]
    exact htaken.sampleWithin htaken.2
  · exact h

/-- The cycles from the entry of a pass to its last sample (R40(a), R64). -/
theorem pass_elapsed {s t : State} (h : s.pass = some t) : (t.counter - s.counter).toNat ≤ spanLimit := by
  obtain ⟨u, cand, hloop, rfl⟩ := pass_some h
  obtain ⟨hcounter, hlapse, hlt⟩ := beforeSweeps_time s
  have hlast := consultCallback_inSpan (serviceLoop_inSpan hloop ⟨hcounter, hlapse⟩ hlt) cand
  have hend := hlast.sampleWithin (least := 0) hlast.2
  rw [State.rearm_counter, State.sample, hend.elapsed]
  exact hend.2

/-- A port's step takes no sample or one. -/
theorem portStep_time {s t : State} (h : s.portStep = .next t) : s.SameOrSampled t := by
  obtain rfl | ⟨-, f, -, rfl⟩ | ⟨c, -, rfl⟩ := portStep_does h
  · exact .refl _
  · exact .refl _
  · obtain ⟨u, f, ht, hw, -⟩ := microStep_does c s
    rw [ht]
    exact hw.time

/-- Settles O52: within a pass the counter is the entry plus the lapse; outside it a step takes no sample or one. -/
theorem passTakesLessThanHalfTheCounter : Obligations.PassTakesLessThanHalfTheCounter := by
  have hspan : spanLimit = 2147483647 := rfl
  refine ⟨fun s t h => ⟨?_, pass_lapse h⟩, fun s t hs hstep => ?_⟩
  · have := pass_elapsed h
    omega
  · have hturn : s.turnTaken.lapse ≤ spanLimit := by rw [State.turnTaken_lapse]; omega
    have span {u : State} (hu : s.turnTaken.SameOrSampled u) :
        u.lapse < 2 ^ 31 ∧ u.lapse = s.lapse + (u.counter - s.counter).toNat := by
      obtain ⟨hle, hcount⟩ := hu.span hturn
      rw [State.turnTaken_lapse, State.turnTaken_counter] at hcount
      exact ⟨by omega, hcount⟩
    have sampled : s.turnTaken.SameOrSampled s.turnTaken.sample := .inr ⟨rfl, rfl⟩
    obtain ⟨p, -, hport⟩ | ⟨hdisp, hdispatch⟩ := step_next_cases hstep
    · have htime := portStep_time hport
      exact .inr (span htime)
    · obtain rfl | rfl | ⟨-, hpass⟩ := dispatchStep_next_cases hdispatch
      · exact .inr (span (.refl _))
      · exact .inr (span sampled)
      · exact .inl ⟨hdisp, hpass, span sampled⟩

/-! ### The state after reset (R186, R187) -/

/-- Whatever the free record is, the configuration meets R10. -/
theorem cfg_valid : Config.cfg.valid = true := by
  unfold Config.cfg
  split
  · assumption
  · decide

theorem nPorts_pos {c : Cfg} (h : c.valid = true) : 1 ≤ c.nPorts := by
  simp only [Cfg.valid, Cfg.portsOk, Bool.and_eq_true, decide_eq_true_eq] at h
  tauto

theorem reset_ports {p : Port} (h : p ∈ State.reset.ports) : p.cmd = none := by
  obtain rfl | ⟨-, rfl⟩ : p = Port.reset ∨ _ ∧ p = Port.reset := by simpa [State.reset] using h
  all_goals rfl

theorem reset_sound : State.reset.Sound where
  cfgValid := cfg_valid
  portCount := by
    have := nPorts_pos cfg_valid
    simp only [State.reset, List.length_cons, List.length_replicate]
    omega
  masksFit := by simp [State.reset, maskFits]
  rangeBounds i hi := absurd hi (by simp [State.reset])
  periodSet i hi := absurd hi (by simp [State.reset])
  notReserved i hi := absurd hi (by simp [State.reset])
  commandsSound p hp c hc := absurd ((reset_ports hp).symm.trans hc) nofun
  lapseBound := Nat.zero_le _

theorem reset_orderly : State.reset.Orderly where
  enabledInitialised i hi := absurd hi (by simp [State.reset])
  requestOwned i hi := absurd hi (by simp [State.reset])
  preparedDisabled p hp pin duty period run k hc _ := absurd ((reset_ports hp).symm.trans hc) nofun

/-- Settles O56: every mask is 0 and every port idle after reset. -/
theorem resetIsSoundAndOrderly : Obligations.ResetIsSoundAndOrderly := ⟨reset_sound, reset_orderly⟩

/-! ### The state-field numbers (R49, R75) -/

/-- Number `8*i + k` below 136 reads the field `k` of record `CH[i]`. -/
theorem readField_channel (s : State) {i k : Nat} (hi : i ≤ 16) (hk : k < 8) :
    s.readField (8 * i + k) = (channelField (s.chan i) k).elim (.error .noSuchField) .ok := by
  have hlt : 8 * i + k < 136 := by omega
  have hdiv : (8 * i + k) / 8 = i := by omega
  have hmod : (8 * i + k) % 8 = k := by omega
  rw [State.readField, if_pos hlt, hdiv, hmod]
  cases channelField (s.chan i) k <;> rfl

/-- A number from 136 on reads a global field. -/
theorem readField_global (s : State) (k : Nat) :
    s.readField (136 + k) = (globalField s k).elim (.error .noSuchField) .ok := by
  have hge : ¬ 136 + k < 136 := by omega
  rw [State.readField, if_neg hge, Nat.add_sub_cancel_left]
  cases globalField s k <;> rfl

/-- A record has five fields (R49). -/
theorem channelField_of_ge (c : Channel) {k : Nat} (h : 5 ≤ k) : channelField c k = none := by
  obtain ⟨n, rfl⟩ := Nat.exists_eq_add_of_le' h
  rfl

/-- There are twelve global fields (R49). -/
theorem globalField_of_ge (s : State) {k : Nat} (h : 12 ≤ k) : globalField s k = none := by
  obtain ⟨n, rfl⟩ := Nat.exists_eq_add_of_le' h
  rfl

/-- A mask that fits has its bits 31 to 17 at 0 (R30). -/
theorem ushiftRight_of_maskFits {m : Word} (h : maskFits m) : m >>> 17 = 0 := by
  apply BitVec.eq_of_toNat_eq
  rw [BitVec.toNat_ushiftRight, Nat.shiftRight_eq_div_pow, Nat.div_eq_of_lt h]
  rfl

/-- In a sound state each of the four masks reads with its bits 31 to 17 at 0. -/
theorem readField_mask {s : State} (h : s.Sound) {n : Nat} {w : Word} (hn : 136 ≤ n) (hn' : n ≤ 139)
    (hw : s.readField n = .ok w) : w >>> 17 = 0 := by
  obtain ⟨hen, hlevel, hto, hdis⟩ := h.masksFit
  obtain ⟨k, rfl⟩ := Nat.exists_eq_add_of_le hn
  rw [readField_global] at hw
  match k, hn' with
  | 0, _ => exact ushiftRight_of_maskFits (Except.ok.inj hw ▸ hen)
  | 1, _ => exact ushiftRight_of_maskFits (Except.ok.inj hw ▸ hlevel)
  | 2, _ => exact ushiftRight_of_maskFits (Except.ok.inj hw ▸ hto)
  | 3, _ => exact ushiftRight_of_maskFits (Except.ok.inj hw ▸ hdis)
  | k + 4, hk => omega

/-- The word of a mode (R25, R49). -/
theorem modeCode_word (m : Mode) : (modeCode m).setWidth 32 = (match m with
    | .init => 0
    | .updateExpiry => 1
    | .expires => 2
    | .infinite => 3 : Word) := by
  cases m <;> rfl

/-- The packed scan range holds both indices and nothing else. -/
theorem packedRange_fields (first last : BitVec 5) :
    let w : Word := first.setWidth 32 ||| (last.setWidth 32 <<< 8)
    w.extractLsb' 0 5 = first ∧ w.extractLsb' 8 5 = last ∧ w &&& ~~~0x1F1F#32 = 0 := by
  refine ⟨?_, ?_, ?_⟩ <;> apply BitVec.eq_of_getLsbD_eq <;> intro i hi
  · have hword : i < 32 := by omega
    have hlow : ¬ 8 ≤ i := by omega
    simp [hi, hword, hlow]
  · have hshift : 8 + i < 32 := by omega
    have hfirst : first.getLsbD (8 + i) = false := BitVec.getLsbD_of_ge _ _ (by omega)
    simp [hi, hshift, hfirst]
  · by_cases hfield : i < 5 ∨ 8 ≤ i ∧ i < 13
    · have hmask : (~~~0x1F1F#32).getLsbD i = false := by
        obtain hlow | ⟨hlow, hhigh⟩ := hfield <;> interval_cases i <;> rfl
      rw [BitVec.getLsbD_and, hmask]
      simp
    · have hfirst : first.getLsbD i = false := BitVec.getLsbD_of_ge _ _ (by omega)
      have hlast : 8 ≤ i → last.getLsbD (i - 8) = false := fun _ => BitVec.getLsbD_of_ge _ _ (by omega)
      rw [BitVec.getLsbD_and, BitVec.getLsbD_or, BitVec.getLsbD_setWidth, BitVec.getLsbD_shiftLeft, hfirst]
      by_cases hlow : 8 ≤ i <;> simp [hlow, hlast]

/-- A word of one flag. -/
theorem flagAt_zero_fields (b : Bool) : (flagAt b 0).getLsbD 0 = b ∧ flagAt b 0 >>> 1 = 0 := by
  cases b <;> decide

/-- The timer's status word. -/
theorem timerStatus_fields (running armed fast : Bool) :
    let w := flagAt running 0 ||| flagAt armed 1 ||| flagAt fast 2
    w.getLsbD 0 = running ∧ w.getLsbD 1 = armed ∧ w.getLsbD 2 = fast ∧ w >>> 3 = 0 := by
  revert running armed fast
  decide

/-- The output latches are the low half of their word. -/
theorem latches_fields (g : BitVec 16) : (g.setWidth 32).extractLsb' 0 16 = g ∧ g.setWidth 32 >>> 16 = 0 := by
  constructor <;> apply BitVec.eq_of_getLsbD_eq <;> intro i hi
  · have hword : i < 32 := by omega
    simp [hi, hword]
  · simp

/-- Settles O59: the table of R49 number by number, and the bits of its packed words. -/
theorem fieldNumbersReadTheirFields : Obligations.FieldNumbersReadTheirFields := by
  intro s hs
  have global := readField_global s
  refine ⟨fun i hi => ?_, ⟨global 0, global 1, global 2, global 3, fun _ _ => readField_mask hs⟩,
    ⟨_, global 4, packedRange_fields ..⟩, ⟨_, global 5, timerStatus_fields ..⟩, ⟨global 6, global 7⟩,
    ⟨_, global 8, flagAt_zero_fields _⟩, global 9, ⟨_, global 10, latches_fields _⟩,
    ⟨_, global 11, flagAt_zero_fields _⟩, fun n hn => ?_⟩
  · have channel {k : Nat} (hk : k < 8) := readField_channel s hi hk
    refine ⟨channel (k := 0) (by omega), channel (k := 1) (by omega), channel (k := 2) (by omega),
      channel (k := 3) (by omega), ?_, fun k hk hk' => ?_⟩
    · exact (channel (k := 4) (by omega)).trans (congrArg Except.ok (modeCode_word _))
    · rw [channel (by omega), channelField_of_ge _ hk]
      rfl
  · obtain ⟨k, rfl⟩ := Nat.exists_eq_add_of_le (show 136 ≤ n by omega)
    rw [global, globalField_of_ge s (by omega)]
    rfl

end Sys2Proof.Machine

/-! PROOFS. Decoding an encoded command (spec/30_encoding.md rules R81, R82; byte order R74). -/

namespace Sys2Proof.Machine

/-! ### The fields of an encoded command word (R81) -/

/-- The command word bit by bit: the pin, 16 zeros, the opcode. -/
theorem commandWord_getLsbD (op : BitVec 8) (pin : Pin) (i : Nat) : (commandWord op pin).getLsbD i =
    if i < 8 then pin.getLsbD i else if i < 24 then false else op.getLsbD (i - 24) := by
  change (op ++ 0#16 ++ pin).getLsbD i = _
  simp only [BitVec.getLsbD_append, BitVec.getLsbD_zero, Nat.sub_sub, show i - 8 < 16 ↔ i < 24 by omega]

@[simp] theorem op_commandWord (op : BitVec 8) (pin : Pin) (w1 w2 w3 : Word) :
    (Frame.mk (commandWord op pin) w1 w2 w3).op = op := by
  apply BitVec.eq_of_getLsbD_eq
  intro i hi
  have hpin : ¬ 24 + i < 8 := by omega
  simp [Frame.op, commandWord_getLsbD, hi, hpin]

@[simp] theorem rsv_commandWord (op : BitVec 8) (pin : Pin) (w1 w2 w3 : Word) :
    (Frame.mk (commandWord op pin) w1 w2 w3).rsv = 0 := by
  apply BitVec.eq_of_getLsbD_eq
  intro i hi
  have hrsv : 8 + i < 24 := by omega
  simp [Frame.rsv, commandWord_getLsbD, hrsv]

@[simp] theorem pin_commandWord (op : BitVec 8) (pin : Pin) (w1 w2 w3 : Word) :
    (Frame.mk (commandWord op pin) w1 w2 w3).pin = pin := by
  apply BitVec.eq_of_getLsbD_eq
  intro i hi
  simp [Frame.pin, commandWord_getLsbD, hi]

/-- The frame of an instruction decodes to it, row by row of the opcode map (R82): no other row has its opcode, and the words the
row marks "must be 0" are 0. -/
theorem decodeFrame_encode (i : Instr) : decodeFrame (encode i) = .ok i := by
  cases i with
  | start _ _ _ _ | stop _ | setaux _ | clraux => simp [encode, decodeFrame]

/-- Settles O1: the bytes of a frame are read back as that frame, and the frame decodes by its row. -/
theorem encodedBytesDecodeToTheCommand : Obligations.EncodedBytesDecodeToTheCommand := by
  intro i
  calc decodeBytes (encodeBytes i) = decodeFrame (encode i) := decodeBytes_frameBytes (encode i)
    _ = .ok i := decodeFrame_encode i

end Sys2Proof.Machine

/-! PROOFS. What a command can store, said once, and with it the access matrix of the commands (spec/20_memory.md rules R61, R63,
R68). -/

namespace Sys2Proof.Machine

/-! ### What a step of a command stores (R101, R106, R109, R110) -/

/-- Everything one step of an instruction can do to the state outside the ports: `exec` makes at most one of these writes. -/
inductive State.Stores (s : State) : Instr → State → Prop
  | nothing {i : Instr} : Stores s i s
  /-- TARM, TSTART and TSTOP (R151 to R153). -/
  | tarm {i : Instr} (delay : Word) : Stores s i (s.tarm delay)
  | tstart {i : Instr} : Stores s i s.tstart
  | tstop {i : Instr} : Stores s i s.tstop
  /-- START writes a field of its own record, which is not the phase (S2, S3, S5, S6, S12 to S14). -/
  | record {pin : Pin} {duty period run : Word} (ch : Channel)
      (phase : ch.phaseStart = (s.chan (pinIndex pin)).phaseStart) :
      Stores s (.start pin duty period run) (s.setChan (pinIndex pin) ch)
  /-- START sets its request bit (S7). -/
  | requestEnable {pin : Pin} {duty period run : Word} :
      Stores s (.start pin duty period run) (s.requestEnable (pinIndex pin))
  /-- STOP sets its request bit (P4). -/
  | requestDisable {pin : Pin} : Stores s (.stop pin) (s.requestDisable (pinIndex pin))
  /-- SETAUX writes the registration (A1, A2). -/
  | setAuxFn {fn : Word} : Stores s (.setaux fn) (s.setAuxFn fn)
  | setAuxValid {fn : Word} : Stores s (.setaux fn) (s.setAuxValid true)
  /-- CLRAUX withdraws the registration (B1). -/
  | clearAuxValid : Stores s .clraux (s.setAuxValid false)

/-- A step of `i` from `s` to `t` makes at most one write outside the ports, and then moves the active port. -/
def State.StepStores (s : State) (i : Instr) (t : State) : Prop := ∃ u f, s.Stores i u ∧ t = u.onPort f

theorem startMicroStep_stores (pin : Pin) (duty period run : Word) (k : StartStep) (s : State) :
    s.StepStores (.start pin duty period run) (startMicroStep pin duty period run k s) := by
  cases k with
  | s1 | s4 =>
    simp only [startMicroStep]
    split <;> exact ⟨s, _, .nothing, rfl⟩
  | s9 running =>
    cases running with
    | true => exact ⟨_, _, .tarm s.cfg.tKick, rfl⟩
    | false => exact ⟨_, _, .tstart, rfl⟩
  | s10 =>
    simp only [startMicroStep]
    split
    · exact ⟨s, id, .nothing, by simp [State.onPort]⟩
    · exact ⟨s, _, .nothing, rfl⟩
  | s14 =>
    simp only [startMicroStep]
    split
    · exact ⟨s.setMode _ .updateExpiry, _, .record _ rfl, rfl⟩
    · exact ⟨s, _, .nothing, rfl⟩
  | s7 => exact ⟨_, _, .requestEnable, rfl⟩
  | s2 => exact ⟨s.setDuty _ duty, _, .record _ rfl, rfl⟩
  | s3 => exact ⟨s.setPeriod _ period, _, .record _ rfl, rfl⟩
  | s5 => exact ⟨s.setMode _ .init, _, .record _ rfl, rfl⟩
  | s12 => exact ⟨s.setMode _ .infinite, _, .record _ rfl, rfl⟩
  | s6 | s13 => exact ⟨s.setExpiry _ run, _, .record _ rfl, rfl⟩
  | s8 | s11 | s15 => exact ⟨s, _, .nothing, rfl⟩

theorem stopMicroStep_stores (pin : Pin) (k : StopStep) (s : State) :
    s.StepStores (.stop pin) (stopMicroStep pin k s) := by
  cases k with
  | p1 | p2 | p3 =>
    simp only [stopMicroStep]
    split <;> exact ⟨s, _, .nothing, rfl⟩
  | p4 => exact ⟨_, _, .requestDisable, rfl⟩
  | p5 => exact ⟨_, _, .tarm s.cfg.tKick, rfl⟩
  | p6 =>
    simp only [stopMicroStep]
    split
    · exact ⟨s, id, .nothing, by simp [State.onPort]⟩
    · exact ⟨s, _, .nothing, rfl⟩
  | p9 e2 a =>
    simp only [stopMicroStep]
    split
    · exact ⟨_, _, .tstop, rfl⟩
    · exact ⟨s, _, .nothing, rfl⟩
  | p7 | p8 _ | p10 => exact ⟨s, _, .nothing, rfl⟩

theorem setauxMicroStep_stores (fn : Word) (k : SetauxStep) (s : State) :
    s.StepStores (.setaux fn) (setauxMicroStep fn k s) := by
  cases k with
  | a1 => exact ⟨_, _, .setAuxFn, rfl⟩
  | a2 => exact ⟨_, _, .setAuxValid, rfl⟩
  | a4 running =>
    cases running with
    | true => exact ⟨s, _, .nothing, rfl⟩
    | false => exact ⟨_, _, .tstart, rfl⟩
  | a3 | a5 => exact ⟨s, _, .nothing, rfl⟩

theorem clrauxMicroStep_stores (k : ClrauxStep) (s : State) : s.StepStores .clraux (clrauxMicroStep k s) := by
  cases k with
  | b1 => exact ⟨_, _, .clearAuxValid, rfl⟩
  | b3 e =>
    simp only [clrauxMicroStep]
    split
    · exact ⟨_, _, .tstop, rfl⟩
    · exact ⟨s, _, .nothing, rfl⟩
  | b2 | b4 => exact ⟨s, _, .nothing, rfl⟩

/-- The acceptance of a command stores nothing, and each of its micro-steps makes at most one write (R66, R100). -/
theorem exec_stores {i : Instr} {s t : State} (h : exec i s = .next t) : s.StepStores i t := by
  obtain ⟨-, rfl⟩ | ⟨c, -, rfl, rfl⟩ := exec_next_cases h
  · exact ⟨s, _, .nothing, rfl⟩
  · cases c with
    | start pin duty period run k => exact startMicroStep_stores pin duty period run k s
    | stop pin k => exact stopMicroStep_stores pin k s
    | setaux fn k => exact setauxMicroStep_stores fn k s
    | clraux k => exact clrauxMicroStep_stores k s

/-! ### The access matrix (R61, R63, R68) -/

theorem phaseStart_setChan {s : State} {i : Nat} {c : Channel} (h : c.phaseStart = (s.chan i).phaseStart) (j : Nat) :
    ((s.setChan i c).chan j).phaseStart = (s.chan j).phaseStart := by
  rw [chan_setChan]
  split
  · rename_i hj
    rw [h, hj.1]
  · rfl

/-- No store of a command writes a phase: the Channel Table is as it was, or START keeps the phase of its record. -/
theorem State.Stores.phaseStart {i : Instr} {s u : State} (h : s.Stores i u) (j : Nat) :
    (u.chan j).phaseStart = (s.chan j).phaseStart := by
  cases h with
  | record ch phase => exact phaseStart_setChan phase j
  | _ => exact congrArg Channel.phaseStart (chan_eq_of_channels (by simp) j)

/-- Settles O22: by the store the step makes. -/
theorem commandsNeverWriteEngineState : Obligations.CommandsNeverWriteEngineState := by
  intro i s t h
  obtain ⟨u, f, hstore, rfl⟩ := exec_stores h
  have hphase := hstore.phaseStart
  cases hstore with
  | tarm _ | tstart => exact ⟨by simp, by simp, hphase, by simp, by simp, by simp, by simp⟩
  | _ => exact ⟨rfl, rfl, hphase, rfl, rfl, rfl, rfl⟩

/-- Settles O23: by the stores that START, STOP, SETAUX and CLRAUX can make. -/
theorem commandsWriteOnlyTheirFields : Obligations.CommandsWriteOnlyTheirFields := by
  refine ⟨fun pin duty period run s t h => ?_, fun pin s t h => ?_, fun fn s t h => ?_, fun s t h => ?_⟩ <;>
    obtain ⟨u, f, hstore, rfl⟩ := exec_stores h
  · cases hstore with
    | record ch _ => exact ⟨fun j hj => chan_setChan_of_ne s hj ch, rfl, rfl, rfl⟩
    | _ => exact ⟨fun j _ => chan_eq_of_channels (by simp) j, by simp, by simp, by simp⟩
  · cases hstore <;> simp
  · cases hstore <;> simp
  · cases hstore <;> simp

/-- Settles O24: the only stores to a request mask set a bit of it. -/
theorem commandsNeverLoseARequest : Obligations.CommandsNeverLoseARequest := by
  intro i s t h j
  obtain ⟨u, f, hstore, rfl⟩ := exec_stores h
  cases hstore with
  | requestEnable | requestDisable => simp +contextual [maskBit_setBit]
  | _ => simp

end Sys2Proof.Machine

/-! PROOFS. A whole pass: what its sweeps leave to the other registers and to the channels that take no part in them, and its
steps AUX and REARM (spec/41_dispatch.md rules R122, R136, R137; spec/20_memory.md rules R61, R76). -/

namespace Sys2Proof.Machine

/-! ### What a pass never writes (R61) -/

/-- The running flag, the callback registration and the listed answers: what no service, no sample and no APPLY writes. -/
def State.registration (s : State) : Bool × Bool × Word × List Word := (s.timerRunning, s.auxValid, s.auxFn, s.auxAnswers)

theorem beforeSweeps_registration (s : State) : s.beforeSweeps.registration = s.registration := by
  have hsample : s.beforeSweeps.registration = s.enterPass.applyRequests.registration := by
    simp [State.registration, State.beforeSweeps]
  exact hsample.trans (applyRequests_keeps State.registration (fun u => by simp [State.registration]) s.enterPass)

theorem serviceLoop_registration {s t : State} {entry cand : Word} (h : s.serviceLoop entry = some (t, cand)) :
    t.registration = s.registration :=
  serviceLoop_field State.registration
    (fun _ _ _ _ _ hserv => by
      have effect := service_effect hserv
      rw [State.registration, effect.timerRunning, effect.auxValid, effect.auxFn, effect.auxAnswers]
      rfl)
    (fun u => by simp [State.registration]) h

/-- The sweeps of a pass find the registration as the pass did, and leave it so. -/
theorem swept_registration {s u : State} {cand : Word} (h : s.beforeSweeps.serviceLoop s.counter = some (u, cand)) :
    u.timerRunning = s.timerRunning ∧ u.auxValid = s.auxValid ∧ u.auxFn = s.auxFn ∧ u.auxAnswers = s.auxAnswers := by
  simpa [State.registration] using (serviceLoop_registration h).trans (beforeSweeps_registration s)

/-- AUX uses up one listed answer, if there is one, exactly with a callback registered (R136). -/
theorem consultCallback_auxAnswers (s : State) (cand : Word) :
    (s.consultCallback cand).1.auxAnswers = if s.auxValid then s.auxAnswers.tail else s.auxAnswers := by
  unfold State.consultCallback
  split
  · rw [State.sample_eq, State.sampleWithin_auxAnswers]
    unfold State.auxAnswerTaken
    split <;> simp [*]
  · rfl

/-- A service writes neither field of the shape (R125). -/
theorem service_shape {s t : State} {i : Nat} {cand cand' : Word} (h : s.service i cand = some (t, cand')) (j : Nat) :
    (t.chan j).duty = (s.chan j).duty ∧ (t.chan j).period = (s.chan j).period := by
  refine ⟨?_, service_period h j⟩
  by_cases hj : j = i
  · subst hj
    by_cases hlt : j < 17
    · obtain ⟨k, hk⟩ := (service_effect h).record hlt
      rw [hk, prepared_duty]
    · rw [chan_of_ge t (by omega), chan_of_ge s (by omega)]
  · rw [(service_effect h).others j hj]

theorem pass_shape {s t : State} (h : s.pass = some t) (i : Nat) :
    (t.chan i).duty = (s.chan i).duty ∧ (t.chan i).period = (s.chan i).period := by
  obtain ⟨u, cand, hloop, htable⟩ := pass_sweeps h
  have hswept := serviceLoop_keeps
    (fun v => (v.chan i).duty = (s.chan i).duty ∧ (v.chan i).period = (s.chan i).period)
    (fun _ _ _ _ _ _ hv hserv => by
      obtain ⟨hduty, hperiod⟩ := service_shape hserv i
      rwa [hduty, hperiod])
    (fun v hv => by rwa [State.sampleAfterSweep_eq, chan_eq_of_channels (sameTable_sampleWithin v ..).channels]) hloop
    (by rw [beforeSweeps_chan]; exact ⟨rfl, rfl⟩)
  rwa [chan_eq_of_channels htable.channels]

/-- The requests are acknowledged by step 1, and no later step of the pass writes a request (R71, R122). -/
theorem pass_requests {s t : State} (h : s.pass = some t) : t.toEnable = 0 ∧ t.toDisable = 0 := by
  obtain ⟨hen, hdis⟩ := applyRequests_requests s.enterPass
  exact ⟨(pass_within h).toEnable.trans hen, (pass_within h).toDisable.trans hdis⟩

theorem pass_ports {s t : State} (h : s.pass = some t) : t.ports = s.ports :=
  (pass_within h).ports.trans (applyRequests_keeps (·.ports) State.apply_ports s.enterPass)

/-! ### AUX and REARM (R136, R137) -/

/-- Steps 3 and 4 of a pass from the answer of its sweeps (R120). -/
theorem pass_of_sweeps {s u : State} {cand : Word} (h : s.beforeSweeps.serviceLoop s.counter = some (u, cand)) :
    s.pass = some ((u.consultCallback cand).1.rearm (u.consultCallback cand).2) := by
  rw [State.pass, h]
  rfl

theorem swept_cfg {s u : State} {cand : Word} (h : s.beforeSweeps.serviceLoop s.counter = some (u, cand)) :
    u.cfg = s.cfg := (serviceLoop_cfg h).trans (beforeSweeps_cfg s)

/-- Settles O43: the sweeps leave the registration alone, AUX asks it, and REARM arms with the candidate AUX leaves. -/
theorem passAcknowledgesAndRearms : Obligations.PassAcknowledgesAndRearms := by
  refine ⟨fun s t h => ?_, fun s swept cand hloop => ?_⟩
  · obtain ⟨hen, hdis⟩ := pass_requests h
    have hports := pass_ports h
    have hshape := pass_shape h
    obtain ⟨u, cand, hloop, rfl⟩ := pass_some h
    obtain ⟨hrunning, hvalid, hfn, hanswers⟩ := swept_registration hloop
    have kept {β : Type} (f : State → β) (hf : ∀ v : State, f v.auxAnswerTaken.sample = f v) :
        f (u.consultCallback cand).1 = f u := consultCallback_keeps f hf u cand
    refine ⟨hen, hdis, rfl, rfl, ?_, hports, ?_, ?_, ?_, hshape, _, hloop⟩
    · rw [State.rearm_timerRunning, kept (·.timerRunning) (by simp), hrunning]
    · rw [State.rearm_auxValid, kept (·.auxValid) (by simp), hvalid]
    · rw [State.rearm_auxFn, kept (·.auxFn) (by simp), hfn]
    · rw [State.rearm_auxAnswers, consultCallback_auxAnswers, hvalid, hanswers]
  · have hcfg : swept.cfg = s.cfg := swept_cfg hloop
    intro asked wake delay
    have hconsult : swept.consultCallback cand = (asked, wake) := by
      by_cases hv : swept.auxValid = true
      · simp [State.consultCallback, asked, wake, hv, auxDelay, microsToCycles, hcfg]
      · simp [State.consultCallback, asked, wake, hv]
    have hasked : asked.cfg = s.cfg := by
      have := consultCallback_keeps (·.cfg) (fun v => by simp) swept cand
      rw [hconsult] at this
      exact this.trans hcfg
    have hdelay : rearmDelay s.cfg wake = delay := rearmDelay_eq s.cfg wake
    rw [pass_of_sweeps hloop, hconsult, rearm_all, hasked, hdelay]

/-! ### The channels that take no part in a pass (R76, R122, R207) -/

/-- Channel `i` is not enabled, and its record, level bit and latch are those of `s`. -/
def State.LeftAlone (i : Nat) (s t : State) : Prop :=
  maskBit t.enabled i = false ∧ t.chan i = s.chan i ∧ maskBit t.level i = maskBit s.level i ∧ t.latch i = s.latch i

theorem State.LeftAlone.congr {i : Nat} {s t u : State} (h : State.LeftAlone i s t) (htable : t.SameTable u)
    (hgpo : u.gpo = t.gpo) (hgp16o : u.gp16o = t.gp16o) : State.LeftAlone i s u := by
  rw [State.LeftAlone, htable.enabled, chan_eq_of_channels htable.channels, htable.level, latch_eq_of_outputs hgpo hgp16o]
  exact h

/-- A sweep services enabled channels only, and a service writes to its own channel only. -/
theorem State.LeftAlone.service {i j : Nat} {s t u : State} {cand cand' : Word} (h : State.LeftAlone i s t)
    (hen : maskBit t.enabled j = true) (hserv : t.service j cand = some (u, cand')) : State.LeftAlone i s u := by
  obtain ⟨hoff, hchan, hlevel, hlatch⟩ := h
  have effect := service_effect hserv
  have hij : i ≠ j := by
    rintro rfl
    rw [hoff] at hen
    exact absurd hen nofun
  refine ⟨?_, by rw [effect.others i hij, hchan], by rw [effect.level i hij, hlevel], by rw [effect.latch i hij, hlatch]⟩
  by_contra hon
  rw [Bool.not_eq_false] at hon
  rw [service_enabled hserv hon] at hoff
  exact absurd hoff nofun

/-- The fold leaves a channel alone that it does not enable (R122). -/
theorem beforeSweeps_leftAlone {s : State} {i : Nat} (h : s.folded i = false) : State.LeftAlone i s s.beforeSweeps := by
  have hrequest : maskBit s.toEnable i = false := (Bool.or_eq_false_iff.mp h).2
  have hlevel : s.beforeSweeps.level = s.level &&& ~~~s.toEnable := by
    rw [State.beforeSweeps, State.sampleBeforeSweeps_eq, State.sampleWithin_level, applyRequests_level]
    rfl
  have outputs {β : Type} (f : State → β) (hsample : ∀ (v : State) (a b : Nat), f (v.sampleWithin a b) = f v)
      (happly : ∀ v : State, f v.apply = f v) (henter : f s.enterPass = f s) : f s.beforeSweeps = f s := by
    rw [State.beforeSweeps, State.sampleBeforeSweeps_eq, hsample, applyRequests_keeps f happly, henter]
  refine ⟨by rw [beforeSweeps_enabled, maskBit_fold]; exact h, beforeSweeps_chan s i, ?_, ?_⟩
  · rw [hlevel, maskBit_and_not, hrequest, Bool.not_false, Bool.and_true]
  · exact latch_eq_of_outputs (outputs (·.gpo) State.sampleWithin_gpo State.apply_gpo rfl)
      (outputs (·.gp16o) State.sampleWithin_gp16o State.apply_gp16o rfl) i

/-- Settles O45: the fold, every service, every sample and the end of the pass leave the channel alone. -/
theorem passLeavesOtherChannelsAlone : Obligations.PassLeavesOtherChannelsAlone := by
  intro s t h i hfold
  obtain ⟨u, cand, hloop, rfl⟩ := pass_some h
  have hswept : State.LeftAlone i s u := serviceLoop_keeps (State.LeftAlone i s)
    (fun _ _ _ _ _ hen hv hserv => hv.service hen hserv)
    (fun v hv => hv.congr (sameTable_sampleWithin v ..) (by simp) (by simp)) hloop (beforeSweeps_leftAlone hfold)
  have hasked : State.LeftAlone i s (u.consultCallback cand).1 :=
    hswept.congr (sameTable_consultCallback u cand) (consultCallback_keeps (·.gpo) (by simp) u cand)
      (consultCallback_keeps (·.gp16o) (by simp) u cand)
  exact (hasked.congr (sameTable_rearm ..) (by simp) (by simp)).2

end Sys2Proof.Machine

/-! PROOFS. Which frames decode, and to what: decoding and encoding are inverse, a frame decodes exactly by its row, and a frame of
no row completes with `false` (spec/30_encoding.md rules R81 to R83; byte order R74). -/

namespace Sys2Proof.Machine

/-! ### The bytes of a word and of a frame (R74) -/

/-- The bytes a word is put together from are read back from it. -/
theorem wordBytes_wordOfBytes (b0 b1 b2 b3 : Byte) : wordBytes (wordOfBytes b0 b1 b2 b3) = [b0, b1, b2, b3] := by
  have hfield (k : Nat) : (wordOfBytes b0 b1 b2 b3).extractLsb' k 8 = (b3 ++ b2 ++ b1 ++ b0).extractLsb' k 8 := rfl
  simp (disch := omega) only [wordBytes, hfield, BitVec.extractLsb'_append_eq_of_le, BitVec.extractLsb'_append_eq_of_add_le,
    BitVec.extractLsb'_eq_self, Nat.sub_self, Nat.reduceSub]

/-- Bytes that make a frame are the bytes of that frame. -/
theorem frameBytes_of_frameOfBytes {bs : List Byte} {f : Frame} (h : frameOfBytes bs = some f) : frameBytes f = bs := by
  unfold frameOfBytes at h
  split at h
  · obtain rfl := Option.some.inj h
    simp only [frameBytes, wordBytes_wordOfBytes, List.cons_append, List.nil_append]
  · exact absurd h nofun

/-- Bytes that decode are a frame that decodes (R75). -/
theorem decodeBytes_ok {bs : List Byte} {i : Instr} (h : decodeBytes bs = .ok i) :
    ∃ f, frameBytes f = bs ∧ decodeFrame f = .ok i := by
  unfold decodeBytes at h
  split at h
  · exact ⟨_, frameBytes_of_frameOfBytes ‹_›, h⟩
  · exact absurd h nofun

/-! ### The fields of `W0` determine it (R81) -/

/-- With its reserved field 0, `W0` is the command word of its opcode and its pin. -/
theorem commandWord_op_pin {f : Frame} (h : f.rsv = 0) : commandWord f.op f.pin = f.w0 := by
  apply BitVec.eq_of_getLsbD_eq
  intro i hi
  rw [commandWord_getLsbD]
  by_cases hpin : i < 8
  · simp [Frame.pin, hpin]
  by_cases hrsv : i < 24
  · have hbit : f.rsv.getLsbD (i - 8) = false := by rw [h]; exact BitVec.getLsbD_zero
    rw [Frame.rsv, BitVec.getLsbD_extractLsb'] at hbit
    simpa [hpin, hrsv, show i - 8 < 16 by omega, show 8 + (i - 8) = i by omega] using hbit.symm
  · simp [Frame.op, hpin, hrsv, show i - 24 < 8 by omega, show 24 + (i - 24) = i by omega]

/-- The mask of START and STOP keeps the opcode and the reserved field, and drops the pin (R82). -/
theorem commandWord_eq_iff (op : BitVec 8) (pin : Pin) (w : Word) :
    commandWord op pin = w ↔ w &&& 0xFFFFFF00#32 = commandWord op 0 ∧ pin = w.setWidth 8 := by
  have hmask : ∀ i < 32, (0xFFFFFF00#32).getLsbD i = decide (8 ≤ i) := by decide
  constructor
  · rintro rfl
    refine ⟨BitVec.eq_of_getLsbD_eq fun i hi => ?_, BitVec.eq_of_getLsbD_eq fun i hi => ?_⟩
    · rw [BitVec.getLsbD_and, hmask i hi, commandWord_getLsbD, commandWord_getLsbD]
      by_cases hpin : i < 8
      · simp [hpin, show ¬ 8 ≤ i by omega]
      · simp [hpin, show 8 ≤ i by omega]
    · simp [commandWord_getLsbD, hi]
  · rintro ⟨hrow, rfl⟩
    refine BitVec.eq_of_getLsbD_eq fun i hi => ?_
    rw [commandWord_getLsbD]
    by_cases hpin : i < 8
    · simp [hpin]
    · have hbit := congrArg (·.getLsbD i) hrow
      simpa [hmask i hi, commandWord_getLsbD, hpin, show 8 ≤ i by omega] using hbit.symm

/-! ### Decoding and encoding are inverse (R81, R83) -/

/-- A frame that decodes is the encoding of what it decodes to: on each row the decoder has checked the opcode, the reserved
field and the words that must be 0, and read the others as operands. -/
theorem encode_of_decodeFrame {f : Frame} {i : Instr} (h : decodeFrame f = .ok i) : encode i = f := by
  have hrsv : f.rsv = 0 := by
    by_contra hrsv
    rw [decodeFrame, if_pos hrsv] at h
    exact absurd h nofun
  have hw0 : ∀ {op : BitVec 8} {pin : Pin}, f.op = op → f.pin = pin → commandWord op pin = f.w0 := by
    rintro _ _ rfl rfl
    exact commandWord_op_pin hrsv
  obtain ⟨w0, w1, w2, w3⟩ := f
  rw [decodeFrame, if_neg (not_not_intro hrsv)] at h
  split_ifs at h with hstart hstop hwords hsetaux hpin hwords hclraux hpin hwords
  · obtain rfl := Except.ok.inj h
    rw [encode, hw0 hstart rfl]
  · obtain rfl := Except.ok.inj h
    obtain ⟨rfl, rfl, rfl⟩ := hwords
    rw [encode, hw0 hstop rfl]
  · obtain rfl := Except.ok.inj h
    obtain ⟨rfl, rfl⟩ := hwords
    rw [encode, hw0 hsetaux (of_not_not hpin)]
  · obtain rfl := Except.ok.inj h
    obtain ⟨rfl, rfl, rfl⟩ := hwords
    rw [encode, hw0 hclraux (of_not_not hpin)]

theorem decodeFrame_eq_ok_iff (f : Frame) (i : Instr) : decodeFrame f = .ok i ↔ encode i = f :=
  ⟨encode_of_decodeFrame, fun h => h ▸ decodeFrame_encode i⟩

/-- Settles O2: the bytes are those of a frame, and the frame is the encoding of what it decodes to. -/
theorem decodedBytesAreTheEncoding : Obligations.DecodedBytesAreTheEncoding := by
  intro bs i h
  obtain ⟨f, rfl, hdec⟩ := decodeBytes_ok h
  exact congrArg frameBytes (encode_of_decodeFrame hdec)

/-- Settles O4: each legal frame is the encoding of its command; the last has bit 8 of `W0` set. -/
theorem writtenOutWordsDecode : Obligations.WrittenOutWordsDecode :=
  ⟨decodeFrame_encode (.start 5 500 1000 0), decodeFrame_encode (.stop 5), decodeFrame_encode (.setaux 0x4000A000),
    decodeFrame_encode .clraux, rfl⟩

/-! ### The rows of the opcode map (R82, R83) -/

/-- Settles O3: a frame decodes to the instruction whose encoding it is, and each row's match and mask say when its first word is
the row's command word. -/
theorem framesDecodeByTheirRow : Obligations.FramesDecodeByTheirRow := by
  rintro ⟨w0, w1, w2, w3⟩ i
  rw [decodeFrame_eq_ok_iff]
  cases i with
  | start pin duty period run =>
    rw [encode, Frame.mk.injEq, commandWord_eq_iff, and_assoc]
    rfl
  | stop pin =>
    rw [encode, Frame.mk.injEq, commandWord_eq_iff, and_assoc, eq_comm (b := w1), eq_comm (b := w2), eq_comm (b := w3)]
    rfl
  | setaux fn =>
    rw [encode, Frame.mk.injEq, eq_comm (b := w0), eq_comm (b := w2), eq_comm (b := w3)]
    rfl
  | clraux =>
    rw [encode, Frame.mk.injEq, eq_comm (b := w0), eq_comm (b := w1), eq_comm (b := w2), eq_comm (b := w3)]
    rfl

/-! ### An illegal frame (R83) -/

/-- A frame that stands for no command is taken and completes with `false`. -/
theorem acceptFrame_of_illegal {s : State} {f : Frame} (h : ∀ i, decodeFrame f ≠ .ok i) :
    s.acceptFrame f = .next (s.frameTaken.finish false) := by
  rw [State.acceptFrame, decodeBytes_frameBytes]
  cases hdec : decodeFrame f with
  | ok i => exact absurd hdec (h i)
  | error _ => rfl

/-- Completing a command writes the active port and nothing else. -/
theorem finish_of_port {s : State} {q : Port} (hq : s.activePort = some q) (b : Bool) :
    s.finish b = { s with ports := s.ports.set s.active { q with cmd := none, result := b } } := by
  have hport : s.ports[s.active]? = some q := hq
  simp only [State.finish, State.onPort, List.modify_eq_set_getElem?, hport, Option.map_eq_map, Option.map_some,
    Option.getD_some]

/-- The frame taken and `false` placed, an idle port has the rest of its frames before it. -/
theorem finish_frameTaken_of_inbox {s : State} {q : Port} {f : Frame} {rest : List Frame} (hq : s.activePort = some q)
    (hin : q.inbox = f :: rest) (b : Bool) :
    s.frameTaken.finish b = { s with ports := s.ports.set s.active { inbox := rest, cmd := none, result := b } } := by
  have hport : s.ports[s.active]? = some q := hq
  obtain ⟨hlt, -⟩ := List.getElem?_eq_some_iff.mp hport
  have htaken : s.frameTaken.activePort = some { q with inbox := rest } := by
    rw [frameTaken_of_inbox hq hin, State.activePort, List.getElem?_set_self hlt]
  rw [finish_of_port htaken, frameTaken_of_inbox hq hin]
  simp only [List.set_set]

/-- Settles O6: the frame is of no row, so it decodes to no instruction. -/
theorem illegalFrameCompletesWithFalse : Obligations.IllegalFrameCompletesWithFalse := by
  intro s p q f rest hturn hport hidle hin hstart hstop hsetaux hclraux
  have hillegal : ∀ i, decodeFrame f ≠ .ok i := by
    intro i hdec
    have hrow := (framesDecodeByTheirRow f i).mp hdec
    cases i with
    | start pin duty period run => exact hstart hrow.1
    | stop pin =>
      obtain ⟨hw0, -, hw1, hw2, hw3⟩ := hrow
      simp [hw0, hw1, hw2, hw3] at hstop
    | setaux fn =>
      obtain ⟨hw0, -, hw2, hw3⟩ := hrow
      simp [hw0, hw2, hw3] at hsetaux
    | clraux =>
      obtain ⟨hw0, hw1, hw2, hw3⟩ := hrow
      simp [hw0, hw1, hw2, hw3] at hclraux
  have hq : ({ s.turnTaken with active := p } : State).activePort = some q := by
    simpa only [State.activePort, State.turnTaken_ports] using hport
  rw [step_of_port hturn, portStep_of_frame hq hidle hin, acceptFrame_of_illegal hillegal,
    finish_frameTaken_of_inbox hq hin, State.turnTaken_ports]

end Sys2Proof.Machine

/-! PROOFS. One step of a command in progress, and a command run alone (spec/40_control_api.md rules R100 to R110). -/

namespace Sys2Proof.Machine

/-! ### One micro-step (R100) -/

/-- A step of a port that runs `c` answers what the micro-step of `c` gives. -/
theorem exec_eq_of_runs {s t : State} {c : Command} (hr : s.runs c) (ht : c.microStep s = t) :
    exec c.instr s = .next t := by
  rw [exec_of_runs hr, ht]

/-- Where the ports are those of `s`, the active one goes on as it does in `s`. -/
theorem goto_of_samePorts {s u : State} (hports : u.ports = s.ports) (hactive : u.active = s.active) (c : Command) :
    u.goto c = { u with ports := s.portsAt c } := by
  simp only [State.goto, State.onPort, State.portsAt, hports, hactive]

theorem tarm_goto (s : State) (w : Word) (c : Command) : (s.tarm w).goto c = { s.tarm w with ports := s.portsAt c } :=
  goto_of_samePorts (s.tarm_ports w) (s.tarm_active w) c

theorem tstart_goto (s : State) (c : Command) : s.tstart.goto c = { s.tstart with ports := s.portsAt c } :=
  goto_of_samePorts s.tstart_ports s.tstart_active c

/-- The three causes of START's refusal at S1 (R101). -/
theorem startRefuses_eq_true {s : State} {pin : Pin} {period : Word} : s.startRefuses pin period = true ↔
    16 < pinIndex pin ∨ maskBit s.cfg.reservedPins (pinIndex pin) = true ∨ period = 0 := by
  simp [State.startRefuses, or_assoc]

/-- Settles O10: by the micro-steps of R101, each an equation of `startMicroStep`. -/
theorem startMicroStepsComplete : Obligations.StartMicroStepsComplete := by
  intro s pin duty period run i atStep upto put c
  refine ⟨fun h => exec_of_idle h i, ?s1_refuses, ?s1, ?s2, ?s3, ?s4_idle, ?s4_running, ?s5, ?s6, ?s7, ?s8,
    ?s9_running, ?s9_stopped, ?s10_holds, ?s10, ?s11, ?s12, ?s13, ?s14_forever, ?s14_finite, ?s15⟩
  case s1_refuses => exact fun h hbad => exec_eq_of_runs h (if_pos (startRefuses_eq_true.mpr hbad))
  case s1 =>
    intro h hpin hres hperiod
    have hvalid : ¬ s.startRefuses pin period = true := by
      simpa using startRefuses_eq_false.mpr ⟨hpin, hres, hperiod⟩
    exact exec_eq_of_runs h (if_neg hvalid)
  case s4_idle => exact fun h hen => exec_eq_of_runs h (if_neg (ne_true_of_eq_false hen))
  case s4_running => exact fun h hen => exec_eq_of_runs h (if_pos hen)
  case s9_running => exact fun h => exec_eq_of_runs h (tarm_goto s _ _)
  case s9_stopped => exact fun h => exec_eq_of_runs h (tstart_goto s _)
  case s10_holds => exact fun h hreq => exec_eq_of_runs h (if_pos hreq)
  case s10 => exact fun h hreq => exec_eq_of_runs h (if_neg (ne_true_of_eq_false hreq))
  case s14_forever =>
    exact fun h hrun => exec_eq_of_runs h (congrArg (State.goto · _) (if_neg (not_not.mpr hrun)))
  case s14_finite => exact fun h hrun => exec_eq_of_runs h (congrArg (State.goto · _) (if_pos hrun))
  all_goals exact fun h => exec_eq_of_runs h rfl

/-- Settles O15: by the micro-steps of R106, each an equation of `stopMicroStep`. -/
theorem stopMicroStepsComplete : Obligations.StopMicroStepsComplete := by
  intro s pin i atStep upto
  refine ⟨fun h => exec_of_idle h i, ?p1_refuses, ?p1, ?p2_refuses, ?p2, ?p3_refuses, ?p3, ?p4, ?p5, ?p6_holds, ?p6,
    ?p7, ?p8, ?p9_idle, ?p9_busy, ?p10⟩
  case p1_refuses => exact fun h hpin => exec_eq_of_runs h (if_pos hpin)
  case p1 => exact fun h hpin => exec_eq_of_runs h (if_neg (not_lt.mpr hpin))
  case p2_refuses => exact fun h hrun => exec_eq_of_runs h (if_neg (ne_true_of_eq_false hrun))
  case p2 => exact fun h hrun => exec_eq_of_runs h (if_pos hrun)
  case p3_refuses => exact fun h hen => exec_eq_of_runs h (if_neg (ne_true_of_eq_false hen))
  case p3 => exact fun h hen => exec_eq_of_runs h (if_pos hen)
  case p5 => exact fun h => exec_eq_of_runs h (tarm_goto s _ _)
  case p6_holds => exact fun h hreq => exec_eq_of_runs h (if_pos hreq)
  case p6 => exact fun h hreq => exec_eq_of_runs h (if_neg (ne_true_of_eq_false hreq))
  case p8 => exact fun e h => exec_eq_of_runs h rfl
  case p9_busy =>
    intro e a h hbusy
    have hnot : ¬ (e = 0 ∧ a = false) := by rintro ⟨rfl, rfl⟩; simp at hbusy
    exact exec_eq_of_runs h (congrArg (State.goto · _) (if_neg hnot))
  all_goals exact fun h => exec_eq_of_runs h rfl

/-- Settles O18: by the micro-steps of R109, each an equation of `setauxMicroStep`. -/
theorem setauxMicroStepsComplete : Obligations.SetauxMicroStepsComplete := by
  intro s fn i atStep upto
  refine ⟨fun h => exec_of_idle h i, ?a1, ?a2, ?a3, ?a4_running, ?a4_stopped, ?a5⟩
  case a4_stopped => exact fun h => exec_eq_of_runs h (tstart_goto s _)
  all_goals exact fun h => exec_eq_of_runs h rfl

/-- Settles O20: by the micro-steps of R110, each an equation of `clrauxMicroStep`. -/
theorem clrauxMicroStepsComplete : Obligations.ClrauxMicroStepsComplete := by
  intro s i atStep upto
  refine ⟨fun h => exec_of_idle h i, ?b1, ?b2, ?b3_idle, ?b3_busy, ?b4⟩
  case b3_busy => exact fun e h hbusy => exec_eq_of_runs h (congrArg (State.goto · _) (if_neg hbusy))
  all_goals exact fun h => exec_eq_of_runs h rfl

end Sys2Proof.Machine

/-! PROOFS. A command run alone, from its acceptance to its return or its hold (spec/40_control_api.md rules R102 to R110). -/

namespace Sys2Proof.Machine

/-! ### The kick (R151, R153) -/

/-- What the next sample depends on is the same. -/
structure State.SameClock (s u : State) : Prop where
  counter : u.counter = s.counter
  lapse : u.lapse = s.lapse
  elapsed : u.elapsed = s.elapsed
  draws : u.draws = s.draws

theorem State.SameClock.refl (s : State) : s.SameClock s := by constructor <;> rfl

/-- Everything a sample does, from a state with the same clock (R40). -/
theorem sample_of_sameClock {s u : State} (h : s.SameClock u) : u.sample = { u with
    counter := s.sample.counter, lapse := s.sample.lapse, elapsed := s.sample.elapsed, draws := s.sample.draws } := by
  obtain ⟨hcounter, hlapse, helapsed, hdraws⟩ := h
  have hnext : u.nextElapsed = s.nextElapsed := by simp only [State.nextElapsed, helapsed, hdraws]
  cases hs : s.elapsed <;>
    simp only [State.sample, State.sampleWithin, State.elapsedTaken, State.nextLapse, hnext, helapsed, hs, hcounter,
      hlapse, hdraws]

/-- Everything TARM does, from a state with the same clock (R153). -/
theorem tarm_of_sameClock {s u : State} (h : s.SameClock u) (w : Word) : u.tarm w = { u with
    counter := s.sample.counter, lapse := s.sample.lapse, elapsed := s.sample.elapsed, draws := s.sample.draws
    timerLoad := u.ticksOf w, timerRef := s.sample.counter, timerArmed := true } := by
  simp only [State.tarm, sample_of_sameClock h]

/-- Everything TSTART does, from a state with the same clock (R151). -/
theorem tstart_of_sameClock {s u : State} (h : s.SameClock u) : u.tstart = { u with
    counter := s.sample.counter, lapse := s.sample.lapse, elapsed := s.sample.elapsed, draws := s.sample.draws
    timerLoad := u.ticksOf u.cfg.tKick, timerRef := s.sample.counter, timerArmed := true, timerRunning := true } :=
  tarm_of_sameClock (u := { u with timerRunning := true }) { h with } u.cfg.tKick

/-- While the timer runs, TSTART is the kick (R103, R151). -/
theorem tstart_of_running {s : State} (h : s.timerRunning = true) : s.tstart = s.tarm s.cfg.tKick := by
  have hsame : { s with timerRunning := true } = s := by rw [← h]
  rw [State.tstart, hsame]

/-- S8 and S9 of START: the timer is kicked, and started first if it was stopped. -/
theorem kick_eq_tstart (s : State) : (if s.timerRunning then s.tarm s.cfg.tKick else s.tstart) = s.tstart := by
  split
  · exact (tstart_of_running ‹_›).symm
  · rfl

theorem sameClock_onPort (s : State) (f : Port → Port) : s.SameClock (s.onPort f) := by constructor <;> rfl

theorem tarm_onPort (s : State) (f : Port → Port) (w : Word) : (s.onPort f).tarm w = (s.tarm w).onPort f := by
  rw [tarm_of_sameClock (sameClock_onPort s f), tarm_of_sameClock (State.SameClock.refl s)]
  rfl

theorem tstart_onPort (s : State) (f : Port → Port) : (s.onPort f).tstart = s.tstart.onPort f :=
  tarm_onPort { s with timerRunning := true } f s.cfg.tKick

theorem kick_goto (s : State) (c : Command) :
    (if s.timerRunning then (s.goto c).tarm s.cfg.tKick else (s.goto c).tstart) = s.tstart.goto c :=
  (kick_eq_tstart (s.goto c)).trans (tstart_onPort s _)

/-! ### Steps of the active port with no other step between them -/

theorem goto_goto (s : State) (c c' : Command) : (s.goto c).goto c' = s.goto c' := onPort_onPort s _ _

theorem finish_goto (s : State) (c : Command) (b : Bool) : (s.goto c).finish b = s.finish b := onPort_onPort s _ _

theorem activePort_ne_none_of_idle {s : State} (h : s.idle) : s.activePort ≠ none := by
  obtain ⟨p, hp, -⟩ := (idle_iff s).mp h
  simp [hp]

theorem activePort_ne_none_of_runs {s : State} {c : Command} (h : s.runs c) : s.activePort ≠ none := by
  obtain ⟨p, hp, -⟩ := (runs_iff s c).mp h
  simp [hp]

/-- A port that runs `c` is as a port that has gone on to `c`. -/
theorem goto_of_runs {s : State} {c : Command} (h : s.runs c) : s.goto c = s := by
  obtain ⟨p, hp, hc⟩ := (runs_iff s c).mp h
  have hport : s.ports[s.active]? = some p := hp
  have hsame : { p with cmd := some c } = p := by rw [← hc]
  have hports : s.ports.modify s.active (fun p => { p with cmd := some c }) = s.ports := by
    simp only [List.modify_eq_set_getElem?, hport, Option.map_eq_map, Option.map_some, Option.getD_some, hsame]
    obtain ⟨hlt, hget⟩ := List.getElem?_eq_some_iff.mp hport
    rw [← hget, List.set_getElem_self]
  simp only [State.goto, State.onPort, hports]

/-- The acceptance of a command run alone (R100). -/
theorem execAlone_of_idle {s : State} (h : s.idle) (i : Instr) (n : Nat) :
    execAlone i (n + 1) s = execAlone i n (s.goto (Command.first i)) := by
  simp only [execAlone, exec_of_idle h]

/-- A micro-step of a command run alone that writes what takes `u` to `w`, and goes on to `c'`. -/
theorem execAlone_goesOn {i : Instr} {n : Nat} {u w : State} {c c' : Command} (hport : u.activePort ≠ none)
    (hinstr : c.instr = i) (hstep : c.microStep (u.goto c) = (w.goto c).goto c') :
    execAlone i (n + 1) (u.goto c) = execAlone i n (w.goto c') := by
  subst hinstr
  simp only [execAlone, exec_of_runs (runs_goto hport c), hstep, goto_goto]

/-- The last micro-step of a command run alone. -/
theorem execAlone_returns {i : Instr} {u : State} {c : Command} {b : Bool} (hport : u.activePort ≠ none)
    (hinstr : c.instr = i) (hstep : c.microStep (u.goto c) = (u.goto c).finish b) :
    execAlone i 1 (u.goto c) = .next { u with ports := u.portsDone b } := by
  subst hinstr
  simp only [execAlone, exec_of_runs (runs_goto hport c), hstep, finish_goto]
  rfl

/-! ### START (R101 to R105) -/

/-- Each write of a field of a record is a write of the record (R20). -/
theorem setPeriod_setDuty (s : State) {i : Nat} (hi : i < 17) (duty period : Word) :
    (s.setDuty i duty).setPeriod i period = s.setChan i { s.chan i with duty := duty, period := period } := by
  simp [hi]

theorem setExpiry_setMode_setChan (s : State) {i : Nat} (hi : i < 17) (c : Channel) (m : Mode) (run : Word) :
    ((s.setChan i c).setMode i m).setExpiry i run = s.setChan i { c with mode := m, expiry := run } := by
  simp [hi]

/-- Settles O9: START run alone returns at S1. -/
theorem startRefusesWithoutSideEffects : Obligations.StartRefusesWithoutSideEffects := by
  intro s pin duty period run hidle hbad
  calc execAlone (.start pin duty period run) 2 s
      = execAlone (.start pin duty period run) 1 (s.goto (.start pin duty period run .s1)) :=
        execAlone_of_idle hidle _ 1
    _ = .next { s with ports := s.portsDone false } :=
        execAlone_returns (activePort_ne_none_of_idle hidle) rfl (if_pos (startRefuses_eq_true.mpr hbad))

section
variable {s : State} {pin : Pin} {duty period run : Word}

/-- S1 to S3: a START that is not refused writes the shape of its channel, and comes to S4. -/
theorem execAlone_start_shape (hidle : s.idle) (hvalid : s.startRefuses pin period = false) (n : Nat) :
    execAlone (.start pin duty period run) (n + 4) s = execAlone (.start pin duty period run) n
      ((s.setChan (pinIndex pin) { s.chan (pinIndex pin) with duty := duty, period := period }).goto
        (.start pin duty period run .s4)) := by
  have hport := activePort_ne_none_of_idle hidle
  obtain ⟨hpin, -, -⟩ := startRefuses_eq_false.mp hvalid
  calc execAlone (.start pin duty period run) (n + 4) s
      = execAlone (.start pin duty period run) (n + 3) (s.goto (.start pin duty period run .s1)) :=
        execAlone_of_idle hidle _ _
    _ = execAlone (.start pin duty period run) (n + 2) (s.goto (.start pin duty period run .s2)) :=
        execAlone_goesOn hport rfl (if_neg (ne_true_of_eq_false hvalid))
    _ = execAlone (.start pin duty period run) (n + 1)
          ((s.setDuty (pinIndex pin) duty).goto (.start pin duty period run .s3)) := execAlone_goesOn hport rfl rfl
    _ = execAlone (.start pin duty period run) n
          (((s.setDuty (pinIndex pin) duty).setPeriod (pinIndex pin) period).goto (.start pin duty period run .s4)) :=
        execAlone_goesOn hport rfl rfl
    _ = _ := by rw [setPeriod_setDuty s (by omega)]

/-- S4 to S9: on a channel that is not enabled START writes the mode and the duration, requests, kicks and holds at S10. -/
theorem execAlone_start_enable (hport : s.activePort ≠ none) (hen : maskBit s.enabled (pinIndex pin) = false) :
    execAlone (.start pin duty period run) 6 (s.goto (.start pin duty period run .s4)) =
      .next ((((s.setMode (pinIndex pin) .init).setExpiry (pinIndex pin) run).requestEnable (pinIndex pin)).tstart.goto
        (.start pin duty period run .s10)) :=
  calc execAlone (.start pin duty period run) 6 (s.goto (.start pin duty period run .s4))
      = execAlone (.start pin duty period run) 5 (s.goto (.start pin duty period run .s5)) :=
        execAlone_goesOn hport rfl (if_neg (ne_true_of_eq_false hen))
    _ = execAlone (.start pin duty period run) 4
          ((s.setMode (pinIndex pin) .init).goto (.start pin duty period run .s6)) := execAlone_goesOn hport rfl rfl
    _ = execAlone (.start pin duty period run) 3
          (((s.setMode (pinIndex pin) .init).setExpiry (pinIndex pin) run).goto (.start pin duty period run .s7)) :=
        execAlone_goesOn hport rfl rfl
    _ = execAlone (.start pin duty period run) 2
          ((((s.setMode (pinIndex pin) .init).setExpiry (pinIndex pin) run).requestEnable (pinIndex pin)).goto
            (.start pin duty period run .s8)) := execAlone_goesOn hport rfl rfl
    _ = execAlone (.start pin duty period run) 1
          ((((s.setMode (pinIndex pin) .init).setExpiry (pinIndex pin) run).requestEnable (pinIndex pin)).goto
            (.start pin duty period run (.s9 s.timerRunning))) := execAlone_goesOn hport rfl rfl
    _ = execAlone (.start pin duty period run) 0
          ((((s.setMode (pinIndex pin) .init).setExpiry (pinIndex pin) run).requestEnable (pinIndex pin)).tstart.goto
            (.start pin duty period run .s10)) :=
        execAlone_goesOn hport rfl (congrArg (State.goto · _)
          (kick_goto (((s.setMode (pinIndex pin) .init).setExpiry (pinIndex pin) run).requestEnable (pinIndex pin)) _))

/-- S4, S12 and S13: on an enabled channel START writes the mode and the duration, and comes to S14. -/
theorem execAlone_start_update (hport : s.activePort ≠ none) (hen : maskBit s.enabled (pinIndex pin) = true) (n : Nat) :
    execAlone (.start pin duty period run) (n + 3) (s.goto (.start pin duty period run .s4)) =
      execAlone (.start pin duty period run) n
        (((s.setMode (pinIndex pin) .infinite).setExpiry (pinIndex pin) run).goto (.start pin duty period run .s14)) :=
  calc execAlone (.start pin duty period run) (n + 3) (s.goto (.start pin duty period run .s4))
      = execAlone (.start pin duty period run) (n + 2) (s.goto (.start pin duty period run .s12)) :=
        execAlone_goesOn hport rfl (if_pos hen)
    _ = execAlone (.start pin duty period run) (n + 1)
          ((s.setMode (pinIndex pin) .infinite).goto (.start pin duty period run .s13)) := execAlone_goesOn hport rfl rfl
    _ = execAlone (.start pin duty period run) n
          (((s.setMode (pinIndex pin) .infinite).setExpiry (pinIndex pin) run).goto (.start pin duty period run .s14)) :=
        execAlone_goesOn hport rfl rfl

/-- S14 and S15: a finite duration is left to the next pass as `UpdateExpiry`, and START returns. -/
theorem execAlone_start_mode (hport : s.activePort ≠ none) :
    execAlone (.start pin duty period run) 2 (s.goto (.start pin duty period run .s14)) =
      .next { (if run = 0 then s else s.setMode (pinIndex pin) .updateExpiry) with ports := s.portsDone true } := by
  by_cases hrun : run = 0
  · rw [if_pos hrun]
    calc execAlone (.start pin duty period run) 2 (s.goto (.start pin duty period run .s14))
        = execAlone (.start pin duty period run) 1 (s.goto (.start pin duty period run .s15)) :=
          execAlone_goesOn hport rfl (congrArg (State.goto · _) (if_neg (not_not.mpr hrun)))
      _ = _ := execAlone_returns hport rfl rfl
  · rw [if_neg hrun]
    calc execAlone (.start pin duty period run) 2 (s.goto (.start pin duty period run .s14))
        = execAlone (.start pin duty period run) 1
            ((s.setMode (pinIndex pin) .updateExpiry).goto (.start pin duty period run .s15)) :=
          execAlone_goesOn hport rfl (congrArg (State.goto · _) (if_pos hrun))
      _ = _ := execAlone_returns hport rfl rfl

end

/-- Settles O11: the shape (S1 to S3), then the enable path (S4 to S10). -/
theorem startEnablePathKicksAndHolds : Obligations.StartEnablePathKicksAndHolds := by
  intro s pin duty period run hidle hpin hres hperiod hen
  have hvalid : s.startRefuses pin period = false := startRefuses_eq_false.mpr ⟨hpin, hres, hperiod⟩
  have hindex : pinIndex pin < 17 := Nat.lt_succ_of_le hpin
  rw [execAlone_start_shape hidle hvalid 6,
    execAlone_start_enable (s := s.setChan (pinIndex pin) _) (activePort_ne_none_of_idle hidle) hen,
    setExpiry_setMode_setChan s hindex, tstart_of_sameClock (s := s) (by constructor <;> rfl),
    sample_of_sameClock (State.SameClock.refl s)]
  rfl

/-- Settles O12: the shape (S1 to S3), then the update path (S4, S12 to S15). -/
theorem startUpdatePathCompletesAtOnce : Obligations.StartUpdatePathCompletesAtOnce := by
  intro s pin duty period run hidle hpin hres hperiod hen
  have hvalid : s.startRefuses pin period = false := startRefuses_eq_false.mpr ⟨hpin, hres, hperiod⟩
  have hport := activePort_ne_none_of_idle hidle
  have hindex : pinIndex pin < 17 := Nat.lt_succ_of_le hpin
  rw [execAlone_start_shape hidle hvalid 5, execAlone_start_update (s := s.setChan (pinIndex pin) _) hport hen 2,
    setExpiry_setMode_setChan s hindex, execAlone_start_mode (s := s.setChan (pinIndex pin) _) hport]
  by_cases hrun : run = 0
  · rw [if_pos hrun, if_pos hrun]
    rfl
  · rw [if_neg hrun, if_neg hrun, State.setMode_eq, chan_setChan_self s hindex, setChan_setChan]
    rfl

/-- A turn of the dispatch engine is its step, with the turn used up. -/
theorem step_of_dispatch {s : State} (h : s.turn = .dispatch) : step s = s.turnTaken.dispatchStep := by
  simp only [step, h, State.takeTurn]

/-- A stopped timer gives the engine nothing to do (R154). -/
theorem dispatchStep_of_stopped {s : State} (h : s.timerRunning = false) : s.dispatchStep = .next s := by
  simp [State.dispatchStep, h]

/-- Settles O13: the port's own step is S10, which finds the bit set; the engine's step does not look at a stopped timer. -/
theorem stoppedTimerNeverLiftsTheHold : Obligations.StoppedTimerNeverLiftsTheHold := by
  intro s p q pin duty period run hport hcmd hreq hstopped
  refine ⟨fun hturn => ?_, fun hturn => ?_⟩
  · have hq : ({ s.turnTaken with active := p } : State).activePort = some q := by
      simpa only [State.activePort, State.turnTaken_ports] using hport
    have hhold : maskBit s.turnTaken.toEnable (pinIndex pin) = true := by rw [State.turnTaken_toEnable]; exact hreq
    rw [step_of_port hturn, portStep_of_cmd hq hcmd]
    exact exec_eq_of_runs ((runs_iff _ _).mpr ⟨q, hq, hcmd⟩) (if_pos hhold)
  · rw [step_of_dispatch hturn, dispatchStep_of_stopped (by simpa using hstopped)]

/-! ### STOP (R106 to R108) -/

section
variable {s : State} {pin : Pin}

/-- P1: STOP of a channel that there is comes to P2. -/
theorem execAlone_stop_pin (hidle : s.idle) (hpin : pinIndex pin ≤ 16) (n : Nat) :
    execAlone (.stop pin) (n + 2) s = execAlone (.stop pin) n (s.goto (.stop pin .p2)) :=
  calc execAlone (.stop pin) (n + 2) s
      = execAlone (.stop pin) (n + 1) (s.goto (.stop pin .p1)) := execAlone_of_idle hidle _ _
    _ = execAlone (.stop pin) n (s.goto (.stop pin .p2)) :=
        execAlone_goesOn (activePort_ne_none_of_idle hidle) rfl (if_neg (not_lt.mpr hpin))

/-- P1 and P2: with the timer running it comes to P3. -/
theorem execAlone_stop_timer (hidle : s.idle) (hpin : pinIndex pin ≤ 16) (hrun : s.timerRunning = true) (n : Nat) :
    execAlone (.stop pin) (n + 3) s = execAlone (.stop pin) n (s.goto (.stop pin .p3)) :=
  (execAlone_stop_pin hidle hpin (n + 1)).trans
    (execAlone_goesOn (activePort_ne_none_of_idle hidle) rfl (if_pos hrun))

end

/-- Settles O14: STOP run alone comes as far as the first test that fails, and returns there. -/
theorem stopRefusesWithoutSideEffects : Obligations.StopRefusesWithoutSideEffects := by
  intro s pin hidle
  have hport := activePort_ne_none_of_idle hidle
  refine ⟨fun hpin => ?p1, fun hpin hrun => ?p2, fun hpin hrun hen => ?p3⟩
  case p1 => exact (execAlone_of_idle hidle _ 1).trans (execAlone_returns hport rfl (if_pos hpin))
  case p2 =>
    exact (execAlone_stop_pin hidle hpin 1).trans
      (execAlone_returns hport rfl (if_neg (ne_true_of_eq_false hrun)))
  case p3 =>
    exact (execAlone_stop_timer hidle hpin hrun 1).trans
      (execAlone_returns hport rfl (if_neg (ne_true_of_eq_false hen)))

/-- Settles O16: the tests (P1 to P3), then the request (P4) and the kick (P5). -/
theorem stopRequestsKicksAndHolds : Obligations.StopRequestsKicksAndHolds := by
  intro s pin hidle hpin hrun hen
  have hport := activePort_ne_none_of_idle hidle
  calc execAlone (.stop pin) 6 s
      = execAlone (.stop pin) 3 (s.goto (.stop pin .p3)) := execAlone_stop_timer hidle hpin hrun 3
    _ = execAlone (.stop pin) 2 (s.goto (.stop pin .p4)) := execAlone_goesOn hport rfl (if_pos hen)
    _ = execAlone (.stop pin) 1 ((s.requestDisable (pinIndex pin)).goto (.stop pin .p5)) :=
        execAlone_goesOn hport rfl rfl
    _ = execAlone (.stop pin) 0 (((s.requestDisable (pinIndex pin)).tarm s.cfg.tKick).goto (.stop pin .p6)) :=
        execAlone_goesOn hport rfl (congrArg (State.goto · _) (tarm_onPort _ _ _))
    _ = _ := by
      rw [tarm_of_sameClock (s := s) (by constructor <;> rfl), sample_of_sameClock (State.SameClock.refl s)]
      rfl

/-- Settles O17: P7 and P8 read what P9 decides by. -/
theorem stopShutsTheIdleTimerDown : Obligations.StopShutsTheIdleTimerDown := by
  intro s pin hruns hreq
  have hport := activePort_ne_none_of_runs hruns
  have hread : execAlone (.stop pin) 5 s =
      execAlone (.stop pin) 2 (s.goto (.stop pin (.p9 s.enabled s.auxValid))) :=
    calc execAlone (.stop pin) 5 s
        = execAlone (.stop pin) 5 (s.goto (.stop pin .p6)) := by rw [goto_of_runs hruns]
      _ = execAlone (.stop pin) 4 (s.goto (.stop pin .p7)) :=
          execAlone_goesOn hport rfl (if_neg (ne_true_of_eq_false hreq))
      _ = execAlone (.stop pin) 3 (s.goto (.stop pin (.p8 s.enabled))) := execAlone_goesOn hport rfl rfl
      _ = execAlone (.stop pin) 2 (s.goto (.stop pin (.p9 s.enabled s.auxValid))) := execAlone_goesOn hport rfl rfl
  rw [hread]
  by_cases hquiet : s.enabled = 0 ∧ s.auxValid = false
  · rw [if_pos hquiet]
    calc execAlone (.stop pin) 2 (s.goto (.stop pin (.p9 s.enabled s.auxValid)))
        = execAlone (.stop pin) 1 (s.tstop.goto (.stop pin .p10)) :=
          execAlone_goesOn hport rfl (congrArg (State.goto · _) (if_pos hquiet))
      _ = _ := execAlone_returns hport rfl rfl
  · rw [if_neg hquiet]
    calc execAlone (.stop pin) 2 (s.goto (.stop pin (.p9 s.enabled s.auxValid)))
        = execAlone (.stop pin) 1 (s.goto (.stop pin .p10)) :=
          execAlone_goesOn hport rfl (congrArg (State.goto · _) (if_neg hquiet))
      _ = _ := execAlone_returns hport rfl rfl

/-! ### SETAUX and CLRAUX (R109, R110) -/

/-- Settles O19: the registration (A1, A2), then TSTART at A4 if A3 read the timer as stopped. -/
theorem setauxRegistersAndStartsTheTimer : Obligations.SetauxRegistersAndStartsTheTimer := by
  intro s fn hidle
  have hport := activePort_ne_none_of_idle hidle
  have hregister : execAlone (.setaux fn) 6 s =
      execAlone (.setaux fn) 2 (((s.setAuxFn fn).setAuxValid true).goto (.setaux fn (.a4 s.timerRunning))) :=
    calc execAlone (.setaux fn) 6 s
        = execAlone (.setaux fn) 5 (s.goto (.setaux fn .a1)) := execAlone_of_idle hidle _ _
      _ = execAlone (.setaux fn) 4 ((s.setAuxFn fn).goto (.setaux fn .a2)) := execAlone_goesOn hport rfl rfl
      _ = execAlone (.setaux fn) 3 (((s.setAuxFn fn).setAuxValid true).goto (.setaux fn .a3)) :=
          execAlone_goesOn hport rfl rfl
      _ = execAlone (.setaux fn) 2 (((s.setAuxFn fn).setAuxValid true).goto (.setaux fn (.a4 s.timerRunning))) :=
          execAlone_goesOn hport rfl rfl
  refine ⟨fun hrun => ?_, fun hrun => ?_⟩
  · calc execAlone (.setaux fn) 6 s
        = execAlone (.setaux fn) 2 (((s.setAuxFn fn).setAuxValid true).goto (.setaux fn (.a4 true))) := by
          rw [hregister, hrun]
      _ = execAlone (.setaux fn) 1 (((s.setAuxFn fn).setAuxValid true).goto (.setaux fn .a5)) :=
          execAlone_goesOn hport rfl rfl
      _ = _ := execAlone_returns hport rfl rfl
  · have hport' : ((s.setAuxFn fn).setAuxValid true).tstart.activePort ≠ none := by
      simpa [State.activePort] using hport
    calc execAlone (.setaux fn) 6 s
        = execAlone (.setaux fn) 2 (((s.setAuxFn fn).setAuxValid true).goto (.setaux fn (.a4 false))) := by
          rw [hregister, hrun]
      _ = execAlone (.setaux fn) 1 (((s.setAuxFn fn).setAuxValid true).tstart.goto (.setaux fn .a5)) :=
          execAlone_goesOn hport rfl (congrArg (State.goto · _) (tstart_onPort _ _))
      _ = .next { ((s.setAuxFn fn).setAuxValid true).tstart with
            ports := ((s.setAuxFn fn).setAuxValid true).tstart.portsDone true } := execAlone_returns hport' rfl rfl
      _ = _ := by
        rw [tstart_of_sameClock (s := s) (by constructor <;> rfl), sample_of_sameClock (State.SameClock.refl s)]
        rfl

/-- Settles O21: B2 reads what B3 decides by. -/
theorem clrauxStopsTheIdleTimer : Obligations.ClrauxStopsTheIdleTimer := by
  intro s hidle
  have hport := activePort_ne_none_of_idle hidle
  have hread : execAlone .clraux 5 s = execAlone .clraux 2 ((s.setAuxValid false).goto (.clraux (.b3 s.enabled))) :=
    calc execAlone .clraux 5 s
        = execAlone .clraux 4 (s.goto (.clraux .b1)) := execAlone_of_idle hidle _ _
      _ = execAlone .clraux 3 ((s.setAuxValid false).goto (.clraux .b2)) := execAlone_goesOn hport rfl rfl
      _ = execAlone .clraux 2 ((s.setAuxValid false).goto (.clraux (.b3 s.enabled))) := execAlone_goesOn hport rfl rfl
  rw [hread]
  by_cases hquiet : s.enabled = 0
  · rw [if_pos hquiet]
    calc execAlone .clraux 2 ((s.setAuxValid false).goto (.clraux (.b3 s.enabled)))
        = execAlone .clraux 1 ((s.setAuxValid false).tstop.goto (.clraux .b4)) :=
          execAlone_goesOn hport rfl (congrArg (State.goto · _) (if_pos hquiet))
      _ = _ := execAlone_returns hport rfl rfl
  · rw [if_neg hquiet]
    calc execAlone .clraux 2 ((s.setAuxValid false).goto (.clraux (.b3 s.enabled)))
        = execAlone .clraux 1 ((s.setAuxValid false).goto (.clraux .b4)) :=
          execAlone_goesOn hport rfl (congrArg (State.goto · _) (if_neg hquiet))
      _ = _ := execAlone_returns hport rfl rfl

end Sys2Proof.Machine

/-! PROOFS. SERVICE of a channel that the mode conversions change (spec/41_dispatch.md rules R126, R127, R131, R133). -/

namespace Sys2Proof.Machine

/-! ### The mode conversions in a service (R125) -/

/-- A channel is converted once. -/
theorem prepared_prepared (c : Channel) (now : Word) : (c.prepared now).prepared now = c.prepared now := by
  cases hmode : c.mode with
  | init =>
    by_cases hexpiry : c.expiry = 0
    · rw [prepared_of_init_forever hmode hexpiry]
      exact prepared_of_infinite rfl now
    · rw [prepared_of_init_finite hmode hexpiry]
      exact prepared_of_expires rfl now
  | updateExpiry =>
    rw [prepared_of_updateExpiry hmode]
    exact prepared_of_expires rfl now
  | expires => rw [prepared_of_expires hmode, prepared_of_expires hmode]
  | infinite => rw [prepared_of_infinite hmode, prepared_of_infinite hmode]

/-- A service serves the channel that the conversions make of its record. -/
theorem service_setChan_prepared (s : State) (i : Nat) (cand : Word) :
    (s.setChan i ((s.chan i).prepared s.counter)).service i cand = s.service i cand := by
  by_cases hi : i < 17
  · simp only [State.service, chan_setChan_self s hi, State.setChan_counter, State.setChan_level, prepared_prepared,
      setChan_setChan]
  · rw [setChan_of_ge s (not_lt.mp hi)]

/-! ### A rising edge (R131) -/

/-- A service in which a rising edge is due toggles the converted channel to high, and settles. -/
theorem service_of_rising {s : State} {i : Nat} {c : Channel} {ne er : Word} (hlow : maskBit s.level i = false)
    (hc : (s.chan i).prepared s.counter = c) (hne : c.nextEvent false s.counter = ne)
    (her : c.expiryRemaining ne s.counter = er) (hdue : edgeDue ne er = true) (cand : Word) :
    s.service i cand = some (((s.setChan i c).toggleHigh i ne).1.settle i ((s.setChan i c).toggleHigh i ne).2 er cand) := by
  simp only [State.service, hc, hlow, hne, her, State.edge, hdue, State.setChan_level, if_true, Bool.false_eq_true,
    if_false, Option.map_some]

/-- A toggle to high sets the latch unless the duty is 0 (R131, R142). -/
theorem toggleHigh_latch (s : State) {i : Nat} (hi : i ≤ 16) (ne : Word) :
    (s.toggleHigh i ne).1.latch i = if (s.chan i).duty = 0 then s.latch i else true := by
  unfold State.toggleHigh
  by_cases hduty : (s.chan i).duty = 0
  · rw [if_neg (not_not.mpr hduty), if_pos hduty]
    rfl
  · rw [if_pos hduty, if_neg hduty]
    exact latch_gpioSet_self _ hi

/-- A toggle to high sets the level bit and keeps every record and the enabled set (R131). -/
theorem toggleHigh_table (s : State) {i : Nat} (hi : i ≤ 16) (ne : Word) :
    (s.toggleHigh i ne).1.channels = s.channels ∧ (s.toggleHigh i ne).1.enabled = s.enabled ∧
      maskBit (s.toggleHigh i ne).1.level i = true := by
  rw [toggleHigh_eq s hi]
  exact ⟨rfl, rfl, maskBit_setBit_self s.level (by omega)⟩

/-- Before its deadline a channel stays enabled, and the candidate folds both times (R133). -/
theorem settle_of_pending {er : Word} (her : 0 < signed er) (s : State) (i : Nat) (ne cand : Word) :
    s.settle i ne er cand = (s, minS (minS cand ne) er) := by
  have hpending : ¬ signed er ≤ 0 := not_le.mpr her
  simp only [settle_all, hpending, and_false, if_false]

theorem signed_of_lt {v : Word} (h : v.toNat < 2 ^ 31) : signed v = v.toNat := if_pos h

/-- The first service of a finite run: the phase is `now`, the deadline the duration after it, and the channel rises. -/
theorem service_of_fresh_finite {s : State} {i : Nat} (hi : i ≤ 16) (hmode : (s.chan i).mode = .init)
    (hpos : 0 < (s.chan i).expiry.toNat) (hlt : (s.chan i).expiry.toNat < 2 ^ 31) (hlow : maskBit s.level i = false)
    (cand : Word) :
    let c := { s.chan i with phaseStart := s.counter, expiry := (s.chan i).expiry + s.counter, mode := .expires }
    s.service i cand = some (((s.setChan i c).toggleHigh i 0).1, minS (minS cand (s.chan i).duty) (s.chan i).expiry) := by
  intro c
  have hexpiry : (s.chan i).expiry ≠ 0 := by
    intro h0
    simp [h0] at hpos
  have her : 0 < signed (s.chan i).expiry := by
    rw [signed_of_lt hlt]
    exact_mod_cast hpos
  have hdue : edgeDue 0 (s.chan i).expiry = true := by
    rw [edgeDue_iff]
    exact ⟨signed_zero.le, signed_zero.trans_lt her⟩
  have hnext : c.nextEvent false s.counter = 0 := by simp [c, Channel.nextEvent]
  have hremaining : c.expiryRemaining 0 s.counter = (s.chan i).expiry := by simp [c, Channel.expiryRemaining]
  have hduty : ((s.setChan i c).toggleHigh i 0).2 = (s.chan i).duty := by
    simp [State.toggleHigh, chan_setChan_self s (show i < 17 by omega), c]
  rw [service_of_rising hlow (prepared_of_init_finite hmode hexpiry s.counter) hnext hremaining hdue,
    settle_of_pending her, hduty]

/-- Settles O33: the first service by the rising edge it makes; the rest because a service serves the converted channel. -/
theorem freshFiniteChannelGetsItsDeadline : Obligations.FreshFiniteChannelGetsItsDeadline := by
  intro s i cand
  have hconverted := (service_setChan_prepared s i cand).symm
  refine ⟨fun hi hmode hpos hlt hlow => ?_, fun hmode hexpiry => ?_, fun hmode hexpiry => ?_, fun hmode => ?_⟩
  · obtain ⟨hchannels, henabled, hlevel⟩ := toggleHigh_table (s.setChan i { s.chan i with
      phaseStart := s.counter, expiry := (s.chan i).expiry + s.counter, mode := .expires }) hi 0
    refine ⟨_, service_of_fresh_finite hi hmode hpos hlt hlow cand, ?_, hlevel, henabled, ?_⟩
    · rw [chan_eq_of_channels hchannels, chan_setChan_self s (by omega)]
    · rw [toggleHigh_latch _ hi, chan_setChan_self s (by omega)]
      rfl
  · rwa [prepared_of_init_forever hmode hexpiry] at hconverted
  · rwa [prepared_of_init_finite hmode hexpiry] at hconverted
  · rwa [prepared_of_updateExpiry hmode] at hconverted

end Sys2Proof.Machine

/-! PROOFS. The output latch of a constant channel over every step (spec/41_dispatch.md rules R131, R132, R141, R143). -/

namespace Sys2Proof.Machine

/-! ### What writes no latch -/

/-- The output latches of all the pins (R39). -/
def State.outputs (s : State) : BitVec 16 × Bool := (s.gpo, s.gp16o)

theorem latch_of_outputs {s t : State} (h : t.outputs = s.outputs) (i : Nat) : t.latch i = s.latch i := by
  obtain ⟨hgpo, hgp16o⟩ := Prod.mk.inj h
  exact latch_eq_of_outputs hgpo hgp16o i

/-- What the entry, step 1 and a sample keep, the sweeps of a pass find as it was before the pass. -/
theorem beforeSweeps_keeps {β : Type} (f : State → β) (henter : ∀ v : State, f v.enterPass = f v)
    (happly : ∀ v : State, f v.apply = f v) (hsample : ∀ (v : State) (a b : Nat), f (v.sampleWithin a b) = f v)
    (s : State) : f s.beforeSweeps = f s :=
  calc f s.beforeSweeps = f s.enterPass.applyRequests := hsample ..
    _ = f s.enterPass := applyRequests_keeps f happly _
    _ = f s := henter s

theorem beforeSweeps_outputs (s : State) : s.beforeSweeps.outputs = s.outputs :=
  beforeSweeps_keeps State.outputs (fun _ => rfl) (by simp [State.outputs]) (by simp [State.outputs]) s

/-- AUX and REARM write no latch (R136, R137). -/
theorem finishPass_outputs (s : State) (cand cand' : Word) :
    ((s.consultCallback cand).1.rearm cand').outputs = s.outputs :=
  calc ((s.consultCallback cand).1.rearm cand').outputs
      = (s.consultCallback cand).1.outputs := by simp [State.outputs]
    _ = s.outputs := consultCallback_keeps State.outputs (by simp [State.outputs]) s cand

/-- No step of a port writes a latch (R61, R68). -/
theorem portStep_outputs {s t : State} (h : s.portStep = .next t) : t.outputs = s.outputs := by
  have exec_outputs {i : Instr} {u v : State} (hexec : exec i u = .next v) : v.outputs = u.outputs := by
    obtain ⟨-, -, -, -, -, hgpo, hgp16o⟩ := commandsNeverWriteEngineState i u v hexec
    exact Prod.ext hgpo hgp16o
  obtain rfl | ⟨c, -, hexec⟩ | ⟨i, -, hexec⟩ | rfl := portStep_next_cases h
  · rfl
  · exact exec_outputs hexec
  · exact (exec_outputs hexec).trans rfl
  · rfl

/-! ### What no service drives, no step drives -/

/-- The shape of channel `i` is constant in the sense given, and its latch stands at `level`. -/
def State.LatchAt (constant : Word → Word → Prop) (i : Nat) (level : Bool) (s : State) : Prop :=
  constant (s.chan i).duty (s.chan i).period ∧ s.latch i = level

/-- No service of channel `i` with such a shape moves its latch from `level`. -/
def LatchUndriven (constant : Word → Word → Prop) (i : Nat) (level : Bool) : Prop :=
  ∀ (s t : State) (cand cand' : Word), s.service i cand = some (t, cand') →
    constant (s.chan i).duty (s.chan i).period → s.latch i = level → t.latch i = level

section LatchAt

variable {constant : Word → Word → Prop} {i : Nat} {level : Bool}

theorem State.LatchAt.congr {s t : State} (h : s.LatchAt constant i level) (hchannels : t.channels = s.channels)
    (houtputs : t.outputs = s.outputs) : t.LatchAt constant i level := by
  rw [State.LatchAt, chan_eq_of_channels hchannels, latch_of_outputs houtputs]
  exact h

theorem State.LatchAt.sampleWithin {s : State} (h : s.LatchAt constant i level) (a b : Nat) :
    (s.sampleWithin a b).LatchAt constant i level := h.congr (by simp) (by simp [State.outputs])

/-- A service keeps every shape, and every latch but its own (R125). -/
theorem State.LatchAt.service (hserv : LatchUndriven constant i level) {j : Nat} {s t : State} {cand cand' : Word}
    (h : s.LatchAt constant i level) (ht : s.service j cand = some (t, cand')) : t.LatchAt constant i level := by
  obtain ⟨hshape, hlatch⟩ := h
  obtain ⟨hduty, hperiod⟩ := service_shape ht i
  refine ⟨by rwa [hduty, hperiod], ?_⟩
  by_cases hij : i = j
  · subst hij
    exact hserv s t cand cand' ht hshape hlatch
  · rw [(service_effect ht).latch i hij, hlatch]

theorem State.LatchAt.pass (hserv : LatchUndriven constant i level) {s t : State} (h : s.LatchAt constant i level)
    (ht : s.pass = some t) : t.latch i = level := by
  obtain ⟨u, cand, hloop, rfl⟩ := pass_some ht
  have hbegin : s.beforeSweeps.LatchAt constant i level := by
    rw [State.LatchAt, beforeSweeps_chan, latch_of_outputs (beforeSweeps_outputs s)]
    exact h
  have hswept : u.LatchAt constant i level := serviceLoop_keeps (State.LatchAt constant i level)
    (fun _ _ _ _ _ _ hv hserved => hv.service hserv hserved) (fun _ hv => hv.sampleWithin _ _) hloop hbegin
  rw [latch_of_outputs (finishPass_outputs u cand _)]
  exact hswept.2

/-- A latch that no service of its channel moves, no step moves: nothing but a service writes a latch, and no pass a shape. -/
theorem step_keeps_latch (hserv : LatchUndriven constant i level) {s t : State} (hstep : step s = .next t)
    (hshape : constant (s.chan i).duty (s.chan i).period) (hlatch : s.latch i = level) : t.latch i = level := by
  have taken : s.turnTaken.LatchAt constant i level :=
    State.LatchAt.congr ⟨hshape, hlatch⟩ (by simp) (by simp [State.outputs])
  have sampled : s.turnTaken.sample.LatchAt constant i level := taken.sampleWithin _ _
  obtain ⟨p, -, hport⟩ | ⟨-, hdispatch⟩ := step_next_cases hstep
  · rw [latch_of_outputs (portStep_outputs hport)]
    exact taken.2
  · obtain rfl | rfl | ⟨-, hpass⟩ := dispatchStep_next_cases hdispatch
    · exact taken.2
    · exact sampled.2
    · exact sampled.pass hserv hpass

end LatchAt

/-- Settles O50: a service of a channel with equal duty and period does not clear its latch. -/
theorem constantHighLatchStaysHigh : Obligations.ConstantHighLatchStaysHigh := fun _ _ hstep _ hshape hlatch =>
  step_keeps_latch (constant := fun duty period => duty = period) (fun _ _ _ _ h => (service_effect h).notCleared)
    hstep hshape hlatch

/-- Settles O51: a service of a channel with duty 0 does not set its latch. -/
theorem zeroDutyLatchStaysLow : Obligations.ZeroDutyLatchStaysLow := fun _ _ hstep _ hduty hlatch =>
  step_keeps_latch (constant := fun duty _ => duty = 0) (fun _ _ _ _ h => (service_effect h).notSet) hstep hduty hlatch

end Sys2Proof.Machine

/-! PROOFS. The drift-correction loop by the number of its advances (spec/41_dispatch.md rules R132, R145;
spec/70_reset_and_hazards.md rule R198). -/

namespace Sys2Proof.Machine

/-! ### When the loop answers, and what -/

/-- After `j` advances the high portion has wholly passed, so the loop goes on (R132). -/
def driftGoesOn (period duty now phase : Word) (j : Nat) : Prop :=
  sle (phase + BitVec.ofNat 32 j * period - now) (-duty) = true

theorem driftGoesOn_succ (period duty now phase : Word) (j : Nat) :
    driftGoesOn period duty now phase (j + 1) ↔ driftGoesOn period duty now (phase + period) j := by
  rw [driftGoesOn, driftGoesOn, ofNat_succ_mul, BitVec.add_assoc]

/-- The test after the first advance. -/
theorem driftGoesOn_one (period duty now phase : Word) :
    driftGoesOn period duty now phase 1 ↔ sle (phase + period - now) (-duty) = true := by
  rw [driftGoesOn_succ, driftGoesOn]
  simp

/-- The loop is cut iff every test it can make says to go on. -/
theorem driftLoop_eq_none_iff (period duty now : Word) : ∀ (fuel : Nat) (phase : Word),
    driftLoop period duty now fuel phase = none ↔ ∀ j, 1 ≤ j → j ≤ fuel → driftGoesOn period duty now phase j
  | 0, _ => ⟨fun _ j h1 h0 => by omega, fun _ => rfl⟩
  | fuel + 1, phase => by
    have hfirst := driftGoesOn_one period duty now phase
    rw [driftLoop]
    split
    · rename_i hgo
      rw [driftLoop_eq_none_iff period duty now fuel]
      refine ⟨fun h j h1 hj => ?_, fun h j h1 hj => ?_⟩
      · obtain rfl | hlt : j = 1 ∨ 1 < j := by omega
        · exact hfirst.mpr hgo
        · obtain ⟨k, rfl⟩ : ∃ k, j = k + 1 := ⟨j - 1, by omega⟩
          exact (driftGoesOn_succ ..).mpr (h k (by omega) (by omega))
      · exact (driftGoesOn_succ ..).mp (h (j + 1) (by omega) (by omega))
    · rename_i hstop
      exact ⟨nofun, fun h => absurd (hfirst.mp (h 1 le_rfl (by omega))) hstop⟩

/-- The loop answers the phase of the first advance at which the test fails. -/
theorem driftLoop_of_first {period duty now phase : Word} {n fuel : Nat} (h1 : 1 ≤ n) (hn : n ≤ fuel)
    (hgo : ∀ j, 1 ≤ j → j < n → driftGoesOn period duty now phase j) (hstop : ¬ driftGoesOn period duty now phase n) :
    driftLoop period duty now fuel phase = some (phase + BitVec.ofNat 32 n * period) := by
  obtain ⟨k, rfl⟩ : ∃ k, n = k + 1 := ⟨n - 1, by omega⟩
  exact driftLoop_eq period duty now k fuel phase hn (fun j hj hk => hgo j hj (by omega)) (Bool.not_eq_true _ ▸ hstop)

/-- An answer is the phase of the first advance at which the test fails. -/
theorem first_of_driftLoop {period duty now : Word} : ∀ {fuel : Nat} {phase phase' : Word},
    driftLoop period duty now fuel phase = some phase' →
    ∃ n, 1 ≤ n ∧ phase' = phase + BitVec.ofNat 32 n * period ∧ ¬ driftGoesOn period duty now phase n ∧
      ∀ j, 1 ≤ j → j < n → driftGoesOn period duty now phase j
  | fuel + 1, phase, phase', h => by
    have hfirst := driftGoesOn_one period duty now phase
    rw [driftLoop] at h
    split at h
    · rename_i hgo
      obtain ⟨n, h1, rfl, hstop, hbefore⟩ := first_of_driftLoop h
      refine ⟨n + 1, by omega, by rw [ofNat_succ_mul, BitVec.add_assoc], mt (driftGoesOn_succ ..).mp hstop,
        fun j hj hlt => ?_⟩
      obtain rfl | hj' : j = 1 ∨ 1 < j := by omega
      · exact hfirst.mpr hgo
      · obtain ⟨k, rfl⟩ : ∃ k, j = k + 1 := ⟨j - 1, by omega⟩
        exact (driftGoesOn_succ ..).mpr (hbefore k (by omega) (by omega))
    · rename_i hstop
      obtain rfl := Option.some.inj h
      exact ⟨1, le_rfl, by simp, mt hfirst.mp hstop, fun j hj hlt => by omega⟩

/-- Settles O39: the loop answers at the first test that fails. -/
theorem driftLoopStopsAtTheFirstUnfinishedPeriod : Obligations.DriftLoopStopsAtTheFirstUnfinishedPeriod := by
  intro period duty now phase phase' h
  obtain ⟨n, h1, rfl, hstop, hgo⟩ := first_of_driftLoop h
  exact ⟨n, h1, rfl, Bool.not_eq_true _ ▸ hstop, hgo⟩

/-- The phases repeat after 2^32 advances, so a loop that the fuel cuts never ends. -/
theorem driftGoesOn_forever {period duty now phase : Word}
    (h : ∀ j, 1 ≤ j → j ≤ driftFuel → driftGoesOn period duty now phase j) {k : Nat} (hk : 1 ≤ k) :
    driftGoesOn period duty now phase k := by
  have hfuel : driftFuel = 2 ^ 32 := rfl
  obtain ⟨j, h1, hj, hjk⟩ : ∃ j, 1 ≤ j ∧ j ≤ driftFuel ∧ BitVec.ofNat 32 j = BitVec.ofNat 32 k := by
    refine ⟨(k - 1) % 2 ^ 32 + 1, by omega, by omega, BitVec.eq_of_toNat_eq ?_⟩
    simp only [BitVec.toNat_ofNat]
    omega
  have := h j h1 hj
  rwa [driftGoesOn, hjk] at this

/-- Settles O40: the phases the fuel lets the loop visit are all there are. -/
theorem driftLoopHangsExactlyWhenItNeverEnds : Obligations.DriftLoopHangsExactlyWhenItNeverEnds := by
  intro period duty now phase
  rw [driftLoop_eq_none_iff]
  exact ⟨fun h _ => driftGoesOn_forever h, fun h j h1 _ => h j h1⟩

/-! ### Words as integers modulo 2^32 (R13) -/

theorem signed_bounds (v : Word) : -(2 ^ 31) ≤ signed v ∧ signed v < 2 ^ 31 := by
  unfold signed
  have := v.isLt
  split <;> omega

/-- A word is its signed value modulo 2^32. -/
theorem intCast_signed (v : Word) : ((signed v : Int) : Word) = v := by
  rw [signed_eq_toInt]
  exact BitVec.ofInt_toInt

theorem intCast_toNat (v : Word) : ((v.toNat : Int) : Word) = v := by
  rw [Int.cast_natCast, BitVec.natCast_eq_ofNat, BitVec.ofNat_toNat, BitVec.setWidth_eq]

/-- An integer in the signed range is the signed value of its word. -/
theorem signed_intCast {z : Int} (hlow : -(2 ^ 31) ≤ z) (hhigh : z < 2 ^ 31) : signed (z : Word) = z := by
  rw [signed_eq_toInt, BitVec.toInt_intCast, Int.bmod_eq_of_le (by omega) (by omega)]

/-! ### The number of advances within the bounds of R198 -/

/-- The time to the end of the high portion, seen from the rising edge `k` periods on. -/
theorem advanced_phase (phase duty now period : Word) (k : Nat) : phase + BitVec.ofNat 32 k * period - now =
    ((signed (phase + duty - now) - duty.toNat + k * period.toNat : Int) : Word) := by
  push_cast
  rw [intCast_signed, ← Int.cast_natCast duty.toNat, ← Int.cast_natCast period.toNat, intCast_toNat, intCast_toNat,
    BitVec.natCast_eq_ofNat]
  ring

/-- While the falling edge before it is not ahead, the test after an advance says whether the falling edge after it is ahead. -/
theorem driftGoesOn_iff {period duty now phase : Word} (hperiod : period.toNat < 2 ^ 31) (hduty : duty.toNat ≤ period.toNat)
    {k : Nat} (hbefore : signed (phase + duty - now) + k * period.toNat ≤ 0) :
    driftGoesOn period duty now phase (k + 1) ↔ signed (phase + duty - now) + (k + 1) * period.toNat ≤ 0 := by
  have hlow := (signed_bounds (phase + duty - now)).1
  have hneg : signed (-duty) = -(duty.toNat : Int) := by
    rw [← signed_intCast (z := -(duty.toNat : Int)) (by omega) (by omega), Int.cast_neg, intCast_toNat]
  have hk : 0 ≤ (k : Int) * period.toNat := by positivity
  have hsucc : ((k : Int) + 1) * period.toNat = k * period.toNat + period.toNat := by ring
  rw [driftGoesOn, sle_iff, advanced_phase phase duty, hneg, Nat.cast_succ, hsucc,
    signed_intCast (by omega) (by omega)]
  omega

/-- How many advances bring the falling edge ahead of `now` (R145). -/
def driftAdvances (period duty now phase : Word) : Nat := (-(signed (phase + duty - now))).toNat / period.toNat + 1

/-- Within R198, a falling edge that is not ahead of `now` is brought ahead by exactly that many advances. -/
theorem driftGoesOn_advances {period duty now phase : Word} (hpos : 0 < period.toNat) (hperiod : period.toNat < 2 ^ 31)
    (hduty : duty.toNat ≤ period.toNat) (hlate : signed (phase + duty - now) ≤ 0) :
    ¬ driftGoesOn period duty now phase (driftAdvances period duty now phase) ∧
      ∀ j, 1 ≤ j → j < driftAdvances period duty now phase → driftGoesOn period duty now phase j := by
  unfold driftAdvances
  generalize hL : (-(signed (phase + duty - now))).toNat = late
  have hsigned : signed (phase + duty - now) = -(late : Int) := by omega
  have within {k : Nat} (hk : k ≤ late / period.toNat) : (k : Int) * period.toNat ≤ late := by
    exact_mod_cast (Nat.mul_le_mul_right _ hk).trans (Nat.div_mul_le_self ..)
  refine ⟨fun hgo => ?_, fun j h1 hj => ?_⟩
  · have hgo := (driftGoesOn_iff hperiod hduty (by have := within le_rfl; omega)).mp hgo
    have hover : (late : Int) < ((late / period.toNat : Nat) + 1) * period.toNat := by
      rw [add_mul, one_mul]
      exact_mod_cast Nat.lt_div_mul_add hpos
    omega
  · obtain ⟨k, rfl⟩ : ∃ k, j = k + 1 := ⟨j - 1, by omega⟩
    have hbefore := within (k := k) (by omega)
    have hafter := within (k := k + 1) (by omega)
    rw [Nat.cast_succ] at hafter
    exact (driftGoesOn_iff hperiod hduty (by omega)).mpr (by omega)

/-- The loop with a period of 2^31 and no duty goes round two phases for ever. -/
theorem driftGoesOn_half (now : Word) (k : Nat) : driftGoesOn 0x80000000#32 0 now now k := by
  have hsub (v : Word) : now + v - now = v := add_sub_cancel_left now v
  have hmul : (BitVec.ofNat 32 k * 0x80000000#32).toNat = k % 2 * 2 ^ 31 := by
    rw [BitVec.toNat_mul, BitVec.toNat_ofNat, BitVec.toNat_ofNat]
    omega
  rw [driftGoesOn, hsub, sle_iff, neg_zero, signed_zero, signed, hmul]
  split <;> omega

/-- Settles O38: the loop is cut before that many advances and answers at the last of them; with the period 2^31 every test
says to go on. -/
theorem driftLoopCountsItsAdvances : Obligations.DriftLoopCountsItsAdvances := by
  refine ⟨fun period duty now phase hpos hperiod hduty hlate => ?_, fun now fuel => ?_⟩
  · intro advances fuel
    obtain ⟨hstop, hgo⟩ := driftGoesOn_advances hpos hperiod hduty hlate
    split
    · rename_i hfuel
      exact driftLoop_of_first (Nat.le_add_left ..) hfuel hgo hstop
    · rename_i hfuel
      exact (driftLoop_eq_none_iff ..).mpr fun j h1 hj => hgo j h1 (hj.trans_lt (not_le.mp hfuel))
  · exact (driftLoop_eq_none_iff ..).mpr fun j _ _ => driftGoesOn_half now j

end Sys2Proof.Machine

/-! PROOFS. SERVICE of one channel, case by case: no edge, a rising edge, a falling edge (spec/41_dispatch.md rules R125 to
R133). -/

namespace Sys2Proof.Machine

/-! ### A channel past the mode conversions (R125) -/

theorem prepared_of_settled {c : Channel} (h : c.mode = .infinite ∨ c.mode = .expires) (now : Word) : c.prepared now = c :=
  h.elim (prepared_of_infinite · now) (prepared_of_expires · now)

/-- A channel in `Infinite` or `Expires` is served as it is: its edge, then the settlement. -/
theorem service_of_settled {s : State} {i : Nat} {ne er : Word}
    (hmode : (s.chan i).mode = .infinite ∨ (s.chan i).mode = .expires)
    (hne : (s.chan i).nextEvent (maskBit s.level i) s.counter = ne)
    (her : (s.chan i).expiryRemaining ne s.counter = er) (cand : Word) :
    s.service i cand = (s.edge i ne er).map fun r => r.1.settle i r.2 er cand := by
  simp only [State.service, prepared_of_settled hmode, setChan_chan, hne, her]

theorem expiryRemaining_of_expires {c : Channel} (h : c.mode = .expires) (ne now : Word) :
    c.expiryRemaining ne now = c.expiry - now := if_pos h

theorem expiryRemaining_of_infinite {c : Channel} (h : c.mode = .infinite) (ne now : Word) :
    c.expiryRemaining ne now = ne + 1 := if_neg (by simp [h])

/-! ### No edge (R130, R133) -/

theorem edge_of_not_due {ne er : Word} (h : edgeDue ne er = false) (s : State) (i : Nat) :
    s.edge i ne er = some (s, ne) := by
  simp only [State.edge, h, Bool.false_eq_true, if_false]

theorem edgeDue_eq_false_iff (ne er : Word) : edgeDue ne er = false ↔ 0 < signed ne ∨ signed er ≤ signed ne := by
  rw [← Bool.not_eq_true, edgeDue_iff, not_and_or, not_le, not_lt]

/-- With no edge due a service settles, and nothing else. -/
theorem service_of_no_edge {s : State} {i : Nat} {ne er : Word}
    (hmode : (s.chan i).mode = .infinite ∨ (s.chan i).mode = .expires)
    (hne : (s.chan i).nextEvent (maskBit s.level i) s.counter = ne)
    (her : (s.chan i).expiryRemaining ne s.counter = er) (hdue : 0 < signed ne ∨ signed er ≤ signed ne) (cand : Word) :
    s.service i cand = some (s.settle i ne er cand) := by
  rw [service_of_settled hmode hne her, edge_of_not_due ((edgeDue_eq_false_iff ..).mpr hdue), Option.map_some]

/-- Settles O35: no edge is due and no deadline has passed, so the settlement only folds the candidate. -/
theorem serviceBeforeTheEdgeChangesNothing : Obligations.ServiceBeforeTheEdgeChangesNothing := by
  intro s i cand ne er hne
  refine ⟨fun hmode => ?_, fun hmode her => ?_⟩
  · rw [service_of_no_edge (.inl hmode) rfl (expiryRemaining_of_infinite hmode _ _) (.inl hne)]
    simp only [settle_all, hmode, reduceCtorEq, false_and, if_false]
    rfl
  · rw [service_of_no_edge (.inr hmode) rfl (expiryRemaining_of_expires hmode _ _) (.inl hne), settle_of_pending her]
    rfl

/-- Settles O36: no edge is due, and the settlement disables the channel. -/
theorem expiryClearsOnlyTheEnabledBit : Obligations.ExpiryClearsOnlyTheEnabledBit := by
  intro s i cand hmode ne er hpast hdue
  have hpast' : signed ((s.chan i).expiry - s.counter) ≤ 0 := hpast
  rw [service_of_no_edge (.inr hmode) rfl (expiryRemaining_of_expires hmode _ _) hdue]
  simp only [settle_all, hmode, hpast', and_self, if_true]
  rfl

/-! ### A rising edge (R131) -/

/-- The first service of a run for ever: the phase is `now`, the sentinel is 1, and the channel rises. -/
theorem service_of_fresh_forever {s : State} {i : Nat} (hi : i ≤ 16) (hmode : (s.chan i).mode = .init)
    (hexpiry : (s.chan i).expiry = 0) (hlow : maskBit s.level i = false) (cand : Word) :
    let c := { s.chan i with phaseStart := s.counter, mode := .infinite }
    s.service i cand = some (((s.setChan i c).toggleHigh i 0).1, minS (minS cand (s.chan i).duty) 1) := by
  intro c
  have hnext : c.nextEvent false s.counter = 0 := by simp [c, Channel.nextEvent]
  have hremaining : c.expiryRemaining 0 s.counter = 1 := by simp [c, Channel.expiryRemaining]
  have hone : 0 < signed 1 := by decide
  have hduty : ((s.setChan i c).toggleHigh i 0).2 = (s.chan i).duty := by
    simp [State.toggleHigh, chan_setChan_self s (show i < 17 by omega), c]
  rw [service_of_rising hlow (prepared_of_init_forever hmode hexpiry s.counter) hnext hremaining (by decide),
    settle_of_pending hone, hduty]

/-- Settles O32: the first service is a rising edge at its own `now`. -/
theorem freshForeverChannelStartsHigh : Obligations.FreshForeverChannelStartsHigh := by
  intro s i cand hi hmode hexpiry hlow
  obtain ⟨hchannels, henabled, hlevel⟩ := toggleHigh_table (s.setChan i { s.chan i with
    phaseStart := s.counter, mode := .infinite }) hi 0
  refine ⟨_, service_of_fresh_forever hi hmode hexpiry hlow cand, ?_, hlevel, henabled, ?_⟩
  · rw [chan_eq_of_channels hchannels, chan_setChan_self s (by omega)]
  · rw [toggleHigh_latch _ hi, chan_setChan_self s (by omega)]
    rfl

/-! ### A due edge, rising or falling (R130 to R132) -/

/-- Without a deadline the sentinel lies one cycle after the edge, so a due edge is due (R129, R130). -/
theorem signed_lt_succ {ne : Word} (h : signed ne ≤ 0) : signed ne < signed (ne + 1) := by
  have hlow := (signed_bounds ne).1
  have hsucc : ne + 1 = ((signed ne + 1 : Int) : Word) := by
    push_cast
    rw [intCast_signed]
  rw [hsucc, signed_intCast (by omega) (by omega)]
  omega

theorem edge_of_rising {ne er : Word} {s : State} {i : Nat} (hdue : edgeDue ne er = true)
    (hlow : maskBit s.level i = false) : s.edge i ne er = some (s.toggleHigh i ne) := by
  simp only [State.edge, hdue, hlow, if_true, Bool.false_eq_true, if_false]

theorem edge_of_falling {ne er : Word} {s : State} {i : Nat} (hdue : edgeDue ne er = true)
    (hhigh : maskBit s.level i = true) : s.edge i ne er = s.toggleLow i := by
  simp only [State.edge, hdue, hhigh, if_true]

theorem toggleLow_of_loop {s : State} {i : Nat} {phase : Word}
    (h : driftLoop (s.chan i).period (s.chan i).duty s.counter driftFuel (s.chan i).phaseStart = some phase) :
    s.toggleLow i = some ((s.lowered i).setChan i { s.chan i with phaseStart := phase }, phase - s.counter) := by
  simp only [State.toggleLow, h]

theorem toggleLow_of_hang {s : State} {i : Nat}
    (h : driftLoop (s.chan i).period (s.chan i).duty s.counter driftFuel (s.chan i).phaseStart = none) :
    s.toggleLow i = none := by
  simp only [State.toggleLow, h]

/-- Settles O37: the edge is due, so the service is the toggle, settled. -/
theorem lateEdgeBeforeTheDeadlineIsDriven : Obligations.LateEdgeBeforeTheDeadlineIsDriven := by
  intro s i cand hi hmode c ne er stillEnabled candidate hne hbefore
  have hserv : s.service i cand = (s.edge i ne er).map fun r => r.1.settle i r.2 er cand :=
    service_of_settled hmode rfl rfl cand
  have hdue : edgeDue ne er = true := by
    refine (edgeDue_iff ..).mpr ⟨hne, ?_⟩
    obtain hinf | hexp := hmode
    · have her : er = ne + 1 := if_neg (by simp [c, hinf])
      rw [her]
      exact signed_lt_succ hne
    · exact hbefore hexp
  refine ⟨fun hlow => ?_, fun hhigh => ⟨fun phase hloop => ?_, fun hloop => ?_⟩⟩
  · rw [hserv, edge_of_rising hdue hlow, toggleHigh_eq s hi, Option.map_some, settle_all]
    rfl
  · rw [hserv, edge_of_falling hdue hhigh, toggleLow_of_loop hloop, Option.map_some, settle_all,
      chan_setChan_self _ (by omega), lowered_eq s hi]
    rfl
  · rw [hserv, edge_of_falling hdue hhigh, toggleLow_of_hang hloop, Option.map_none]

end Sys2Proof.Machine

/-! PROOFS. The engine's turn (spec/41_dispatch.md rule R120; spec/42_timer_driver.md rule R154) and why the machine stops
(R198). -/

namespace Sys2Proof.Machine

/-! ### The engine's turn (R154) -/

/-- A disarmed timer gives the engine nothing to do. -/
theorem dispatchStep_of_disarmed {s : State} (h : s.timerArmed = false) : s.dispatchStep = .next s := by
  simp [State.dispatchStep, h]

/-- The deadline, with the cycles of a tick by the clock (R7, R154). -/
theorem deadline_eq (s : State) : s.deadline = s.timerRef + s.timerLoad * (if s.cfg.clockFast then 2 else 1) := by
  unfold State.deadline Cfg.tickCyc
  split <;> rfl

section Armed

variable {s : State} (hrunning : s.timerRunning = true) (harmed : s.timerArmed = true)

include hrunning harmed

theorem dispatchStep_of_early (hdue : s.sample.due = false) : s.dispatchStep = .next s.sample := by
  simp only [State.dispatchStep, hrunning, harmed, hdue, Bool.and_self, Bool.false_eq_true, if_true, if_false]

theorem dispatchStep_of_pass {t : State} (hdue : s.sample.due = true) (hpass : s.sample.pass = some t) :
    s.dispatchStep = .next t := by
  simp only [State.dispatchStep, hrunning, harmed, hdue, hpass, Bool.and_self, if_true]

theorem dispatchStep_of_hang (hdue : s.sample.due = true) (hpass : s.sample.pass = none) :
    s.dispatchStep = .fault .passNeverCompletes := by
  simp only [State.dispatchStep, hrunning, harmed, hdue, hpass, Bool.and_self, if_true]

/-- A running and armed timer is due iff the sample has reached the deadline. -/
theorem sample_due_iff : s.sample.due = true ↔ 0 ≤ signed (s.sample.counter -
    (s.timerRef + s.timerLoad * (if s.cfg.clockFast then 2 else 1))) := by
  have hflags : (s.sample.timerRunning && s.sample.timerArmed) = true := by simp [hrunning, harmed]
  have hdeadline : s.sample.deadline = s.timerRef + s.timerLoad * (if s.cfg.clockFast then 2 else 1) := by
    simp [deadline_eq]
  have hzero : signed 0 = 0 := signed_zero
  rw [State.due, hflags, Bool.true_and, hdeadline, sle_iff, hzero]

end Armed

/-- Settles O29: the engine looks at the flags, samples, and tests the sample against the deadline. -/
theorem passIsEnteredWhenTheTimerIsDue : Obligations.PassIsEnteredWhenTheTimerIsDue := by
  intro s hturn
  rw [step_of_dispatch hturn]
  refine ⟨fun hoff => ?_, fun hrunning harmed => ?_⟩
  · obtain hstopped | hdisarmed := hoff
    · exact dispatchStep_of_stopped (by rwa [State.turnTaken_timerRunning])
    · exact dispatchStep_of_disarmed (by rwa [State.turnTaken_timerArmed])
  · intro late
    rw [← State.turnTaken_timerRunning] at hrunning
    rw [← State.turnTaken_timerArmed] at harmed
    have hdue : s.turnTaken.sample.due = true ↔ 0 ≤ late := by
      simpa only [State.turnTaken_timerRef, State.turnTaken_timerLoad, State.turnTaken_cfg] using
        sample_due_iff hrunning harmed
    refine ⟨fun hearly => ?_, fun hlate t hpass => ?_, fun hlate hpass => ?_⟩
    · exact dispatchStep_of_early hrunning harmed (Bool.eq_false_iff.mpr (mt hdue.mp (not_le.mpr hearly)))
    · exact dispatchStep_of_pass hrunning harmed (hdue.mpr hlate) hpass
    · exact dispatchStep_of_hang hrunning harmed (hdue.mpr hlate) hpass

/-! ### Why the machine stops (R160, R198) -/

/-- A port always has a step: it runs only its own command, and begins one only when it is idle. -/
theorem portStep_completes (s : State) : ∃ t, s.portStep = .next t := by
  cases hport : s.activePort with
  | none => exact ⟨s, by simp only [State.portStep, hport]⟩
  | some p =>
    cases hcmd : p.cmd with
    | some c => exact ⟨_, (portStep_of_cmd hport hcmd).trans (exec_of_runs ((runs_iff s c).mpr ⟨p, hport, hcmd⟩))⟩
    | none =>
      cases hinbox : p.inbox with
      | nil => exact ⟨s, by simp only [State.portStep, hport, hcmd, hinbox]⟩
      | cons f rest =>
        rw [portStep_of_frame hport hcmd hinbox]
        cases hdecode : decodeBytes (frameBytes f) with
        | error e => exact ⟨s.frameTaken.finish false, by simp only [State.acceptFrame, hdecode]⟩
        | ok i =>
          have hidle : s.frameTaken.idle := by
            refine (idle_iff _).mpr ⟨{ p with inbox := p.inbox.tail }, ?_, hcmd⟩
            rw [State.frameTaken_eq, State.activePort, State.onPort_active, ports_onPort_active]
            exact congrArg _ hport
          exact ⟨_, (acceptFrame_of_decodes hdecode).trans (exec_of_idle hidle i)⟩

/-- The engine's turn ends in a next state, or a due pass never completes. -/
theorem dispatchStep_completes_or_hangs (s : State) : (∃ t, s.dispatchStep = .next t) ∨
    (s.dispatchStep = .fault .passNeverCompletes ∧ s.sample.due = true ∧ s.sample.pass = none) := by
  cases hrunning : s.timerRunning with
  | false => exact .inl ⟨s, dispatchStep_of_stopped hrunning⟩
  | true =>
    cases harmed : s.timerArmed with
    | false => exact .inl ⟨s, dispatchStep_of_disarmed harmed⟩
    | true =>
      cases hdue : s.sample.due with
      | false => exact .inl ⟨_, dispatchStep_of_early hrunning harmed hdue⟩
      | true =>
        cases hpass : s.sample.pass with
        | some t => exact .inl ⟨t, dispatchStep_of_pass hrunning harmed hdue hpass⟩
        | none => exact .inr ⟨dispatchStep_of_hang hrunning harmed hdue hpass, rfl, rfl⟩

/-- Settles O42: a port's turn always completes, and the engine's does unless its pass hangs. -/
theorem machineStopsOnlyOnAHang : Obligations.MachineStopsOnlyOnAHang := by
  intro s
  cases hturn : s.turn with
  | port p =>
    obtain ⟨t, ht⟩ := portStep_completes { s.turnTaken with active := p }
    rw [step_of_port hturn, ht]
    exact ⟨nofun, nofun⟩
  | dispatch =>
    rw [step_of_dispatch hturn]
    obtain ⟨t, ht⟩ | ⟨hfault, hdue, hpass⟩ := dispatchStep_completes_or_hangs s.turnTaken
    · rw [ht]
      exact ⟨nofun, nofun⟩
    · rw [hfault]
      exact ⟨nofun, fun r hr => ⟨(Host.Outcome.fault.inj hr).symm, rfl, hdue, hpass⟩⟩

end Sys2Proof.Machine

/-! PROOFS. The steps of a pass around its sweeps: APPLY and RANGE (spec/41_dispatch.md rules R122, R123), AUX (R136), REARM
(R137; spec/42_timer_driver.md rules R153, R157). -/

namespace Sys2Proof.Machine

/-! ### APPLY and RANGE (R122, R123) -/

theorem requested_iff (s : State) : s.requested = true ↔ s.toEnable ≠ 0 ∨ s.toDisable ≠ 0 := by
  have hor : s.toEnable ||| s.toDisable = 0 ↔ s.toEnable = 0 ∧ s.toDisable = 0 := BitVec.or_eq_zero_iff
  rw [State.requested, bne_iff_ne, ne_eq, hor, not_and_or]

theorem applyRequests_of_requested {s : State} (h : s.toEnable ≠ 0 ∨ s.toDisable ≠ 0) : s.applyRequests = s.apply :=
  if_pos ((requested_iff s).mpr h)

theorem recomputeRange_of_zero {s : State} (h : s.enabled = 0) :
    s.recomputeRange = { s with firstActivePin := 0, lastActivePin := 0 } := if_neg (not_not.mpr h)

theorem recomputeRange_of_ne_zero {s : State} (h : s.enabled ≠ 0) : s.recomputeRange = { s with
    firstActivePin := BitVec.ofNat 5 (ctz s.enabled), lastActivePin := BitVec.ofNat 5 (msb s.enabled) } := if_pos h

/-- RANGE writes the scan range and nothing else. -/
theorem recomputeRange_all (s : State) : s.recomputeRange = { s with
    firstActivePin := s.recomputeRange.firstActivePin, lastActivePin := s.recomputeRange.lastActivePin } := by
  by_cases h : s.enabled = 0
  · rw [recomputeRange_of_zero h]
  · rw [recomputeRange_of_ne_zero h]

/-- RANGE reads the enabled set only, which it does not write. -/
theorem recomputeRange_recomputeRange (s : State) : s.recomputeRange.recomputeRange = s.recomputeRange := by
  have henabled : s.recomputeRange.enabled = s.enabled := State.recomputeRange_enabled s
  by_cases h : s.enabled = 0
  · rw [recomputeRange_of_zero (henabled.trans h), recomputeRange_of_zero h]
  · rw [recomputeRange_of_ne_zero (henabled ▸ h), henabled, recomputeRange_of_ne_zero h]

/-- Settles O30: with a request pending step 1 is APPLY, which ends in RANGE. -/
theorem applyFoldsTheRequests : Obligations.ApplyFoldsTheRequests := by
  intro s
  refine ⟨fun hen hdis => ?_, fun hreq => ?_⟩
  · have hnone : ¬ s.requested = true := by simp [requested_iff, hen, hdis]
    exact if_neg hnone
  · have happly := applyRequests_of_requested hreq
    have hrange : s.applyRequests.recomputeRange = s.applyRequests := by
      rw [happly, State.apply, recomputeRange_recomputeRange]
    obtain ⟨hen, hdis⟩ := applyRequests_requests s
    refine ⟨fun i => ?_, fun i => ?_, hen, hdis, hrange, ?_⟩
    · rw [applyRequests_enabled, maskBit_fold]
    · rw [applyRequests_level, maskBit_and_not]
    · rw [happly, State.apply_enabled, State.apply_level]
      exact recomputeRange_all _

/-- The least and the greatest index of a set that is not empty fit the 5 bits of the scan range. -/
theorem recomputeRange_pins {s : State} (h : s.enabled ≠ 0) :
    s.recomputeRange.firstActivePin.toNat = ctz s.enabled ∧ s.recomputeRange.lastActivePin.toNat = msb s.enabled := by
  obtain ⟨hctz, -⟩ := ctz_spec h
  obtain ⟨hmsb, -⟩ := msb_spec h
  rw [recomputeRange_of_ne_zero h]
  exact ⟨BitVec.toNat_ofNat .. ▸ Nat.mod_eq_of_lt hctz, BitVec.toNat_ofNat .. ▸ Nat.mod_eq_of_lt hmsb⟩

/-- The entry of a pass writes nothing that RANGE reads, nor the range. -/
theorem recomputeRange_enterPass (s : State) : s.enterPass.recomputeRange = s.recomputeRange.enterPass := by
  by_cases h : s.enabled = 0
  · rw [recomputeRange_of_zero h, recomputeRange_of_zero (s := s.enterPass) h]
    rfl
  · rw [recomputeRange_of_ne_zero h, recomputeRange_of_ne_zero (s := s.enterPass) h]
    rfl

/-- The entry of a pass writes nothing that step 1 reads. -/
theorem applyRequests_enterPass (s : State) : s.enterPass.applyRequests = s.applyRequests.enterPass := by
  have happly : s.enterPass.apply = s.apply.enterPass := recomputeRange_enterPass { s with
    enabled := (s.enabled &&& ~~~s.toDisable) ||| s.toEnable
    level := s.level &&& ~~~s.toEnable
    toEnable := 0
    toDisable := 0 }
  have hreq : s.enterPass.requested = s.requested := rfl
  rw [State.applyRequests, State.applyRequests, happly, hreq]
  split <;> rfl

/-- Settles O31: RANGE takes the first and the last enabled index, and after step 1 a pass writes no range. -/
theorem rangeBoundsTheEnabledSet : Obligations.RangeBoundsTheEnabledSet := by
  intro s
  refine ⟨fun hzero => ?_, fun hne => ?_, fun t hpass => ?_⟩
  · simp [State.recomputeRange, hzero]
  · obtain ⟨hfirst, hlast⟩ := recomputeRange_pins hne
    obtain ⟨-, hctz, hleast⟩ := ctz_spec hne
    obtain ⟨-, hmsb, hgreatest⟩ := msb_spec hne
    rw [hfirst, hlast]
    exact ⟨hctz, hmsb, fun i hi => ⟨hleast i hi, hgreatest i hi⟩⟩
  · have hwithin := pass_within hpass
    rw [applyRequests_enterPass] at hwithin
    exact ⟨hwithin.firstActivePin, hwithin.lastActivePin⟩

/-! ### AUX (R136) -/

/-- Taking an answer and then a sample writes the draws, the counter and the lapse only. -/
theorem auxAnswerTaken_sample_all (s : State) : s.auxAnswerTaken.sample = { s with
    counter := s.auxAnswerTaken.sample.counter, lapse := s.auxAnswerTaken.sample.lapse
    elapsed := s.auxAnswerTaken.sample.elapsed, auxAnswers := s.auxAnswerTaken.sample.auxAnswers
    draws := s.auxAnswerTaken.sample.draws } := by
  obtain ⟨channels, enabled, level, toEnable, toDisable, first, last, running, armed, load, ref, auxValid, auxFn, ports, gpo,
    gp16o, cfg, counter, lapse, active, turns, elapsed, answers, draws⟩ := s
  cases elapsed <;> cases answers <;> rfl

theorem consultCallback_of_valid {s : State} (h : s.auxValid = true) (cand : Word) : s.consultCallback cand =
    (s.auxAnswerTaken.sample, minS cand (auxDelay s.cfg s.auxAnswer s.auxAnswerTaken.sample.counter s.counter)) := if_pos h

/-- Settles O53: with a callback, one answer and one sample are taken, and the smaller delay. -/
theorem callbackDelayIsIntersected : Obligations.CallbackDelayIsIntersected := by
  intro s cand
  refine ⟨fun hvalid => ?_, fun hvalid => ?_⟩
  · exact if_neg (by simp [hvalid])
  · intro t
    have hconsult := consultCallback_of_valid hvalid cand
    have ht : t = s.auxAnswerTaken.sample := congrArg Prod.fst hconsult
    refine ⟨?_, ?_⟩
    · rw [hconsult, signed_minS, ht]
      rfl
    · rw [ht]
      exact auxAnswerTaken_sample_all s

/-! ### REARM (R137, R153, R157) -/

/-- A word below 2^31 is its own signed value (R13). -/
theorem toNat_of_signed_nonneg {v : Word} (h : 0 ≤ signed v) : (v.toNat : Int) = signed v := by
  unfold signed at h ⊢
  split at h <;> split <;> omega

/-- What R10 asks of the constants of the re-arm. -/
theorem rearm_constants {c : Cfg} (h : c.valid = true) :
    1 ≤ signed c.tMinArm ∧ 0 ≤ signed c.tComp := by
  simp only [Cfg.valid, Cfg.timesOk, Cfg.isTime, Cfg.minArmOk, Bool.and_eq_true, decide_eq_true_eq, and_assoc] at h
  obtain ⟨-, -, -, -, -, hcomp, hmin, -, hone, -⟩ := h
  rw [signed_of_lt hmin, signed_of_lt hcomp]
  exact ⟨by exact_mod_cast hone, by positivity⟩

theorem signed_rearmDelay (c : Cfg) (cand : Word) :
    signed (rearmDelay c cand) = max (signed c.tMinArm) (signed (cand - c.tComp)) := by
  rw [rearmDelay_eq]
  split <;> omega

/-- A difference that does not leave the signed range does not wrap (R13). -/
theorem signed_sub {a b : Word} (hlow : -(2 ^ 31) ≤ signed a - signed b) (hhigh : signed a - signed b < 2 ^ 31) :
    signed (a - b) = signed a - signed b := by
  rw [← signed_intCast hlow hhigh, Int.cast_sub, intCast_signed, intCast_signed]

/-- The deadline lies the reload value, in cycles, after the arming (R154). -/
theorem rearm_interval (s : State) (cand : Word) :
    (s.rearm cand).deadline - (s.rearm cand).timerRef =
      (s.rearm cand).timerLoad * (if s.cfg.clockFast then 2 else 1) := by
  rw [deadline_eq, add_sub_cancel_left, State.rearm_cfg]

/-- Settles O54: the delay is positive, so halving and doubling it loses at most one cycle and nothing wraps. -/
theorem rearmIntervalIsBounded : Obligations.RearmIntervalIsBounded := by
  intro s cand hvalid t delay
  obtain ⟨hmin, hcomp⟩ := rearm_constants hvalid
  have hmaxirq := (signed_bounds s.cfg.tMaxirq).2
  have hsigned := signed_rearmDelay s.cfg cand
  have hword : ((rearmDelay s.cfg cand).toNat : Int) = signed (rearmDelay s.cfg cand) :=
    toNat_of_signed_nonneg (by omega)
  have hdelay : (rearmDelay s.cfg cand).toNat = delay := by omega
  have htop := (signed_bounds (rearmDelay s.cfg cand)).2
  have hload : t.timerLoad.toNat = if s.cfg.clockFast then delay / 2 else delay := by
    simp only [t, State.rearm_timerLoad, State.ticksOf]
    split
    · rw [BitVec.toNat_ushiftRight, hdelay, Nat.shiftRight_eq_div_pow, pow_one]
    · exact hdelay
  refine ⟨hload, ?_, fun hcand hnowrap => ?_⟩
  · exact rearm_all s cand
  · intro interval
    have hinterval : interval = (t.timerLoad * (if s.cfg.clockFast then 2 else 1)).toNat :=
      congrArg (fun w : Word => (w.toNat : Int)) (rearm_interval s cand)
    have hsub := signed_sub hnowrap (by omega)
    cases hfast : s.cfg.clockFast with
    | true =>
      simp only [hfast, if_true, BitVec.toNat_mul, show (2 : Word).toNat = 2 from rfl] at hinterval hload
      omega
    | false =>
      simp only [hfast, Bool.false_eq_true, if_false, BitVec.toNat_mul, show (1 : Word).toNat = 1 from rfl] at hinterval hload
      omega

end Sys2Proof.Machine

/-! PROOFS. The sweeps of a pass one by one: which indices a sweep visits and when another sweep follows (spec/41_dispatch.md
rules R124, R134). -/

namespace Sys2Proof.Machine

/-! ### The visits of one sweep (R124) -/

/-- A visit serves the index if it is enabled, and passes the candidate on. -/
def State.visit (r : State × Word) (i : Nat) : Option (State × Word) :=
  if maskBit r.1.enabled i = true then r.1.service i r.2 else some r

/-- A sweep makes its visits in the order of the list. -/
theorem sweepOver_eq_foldlM : ∀ (l : List Nat) (s : State) (cand : Word),
    s.sweepOver l cand = l.foldlM State.visit (s, cand)
  | [], _, _ => rfl
  | i :: rest, s, cand => by
    rw [State.sweepOver, List.foldlM_cons, State.visit]
    split
    · cases hserv : s.service i cand with
      | none => rfl
      | some r => exact sweepOver_eq_foldlM rest r.1 r.2
    · exact sweepOver_eq_foldlM rest s cand

/-- The scan range is the ascending list of the indices within its bounds, which have 5 bits (R31). -/
theorem scanRange_eq_filter (s : State) : s.scanRange =
    (List.range 32).filter fun i => decide (s.firstActivePin.toNat ≤ i ∧ i ≤ s.lastActivePin.toNat) := by
  have hlast := s.lastActivePin.isLt
  have hrange : s.scanRange.Pairwise (· < ·) := List.pairwise_lt_range'
  refine hrange.eq_of_mem_iff (List.pairwise_lt_range.filter _) fun i => ?_
  rw [mem_scanRange, List.mem_filter, List.mem_range, decide_eq_true_eq]
  omega

/-! ### Sweep after sweep (R134) -/

/-- The state after a sweep and the sample that ends it. -/
def State.afterSweep (s : State) : State := (s.sweep.map fun r => r.1.sampleAfterSweep).getD s

/-- The candidate a sweep answers. -/
def State.sweepCandidate (s : State) : Word := (s.sweep.map Prod.snd).getD 0

theorem sweep_eq_some {s t : State} {cand : Word} (h : s.sweep = some (t, cand)) :
    s.afterSweep = t.sampleAfterSweep ∧ s.sweepCandidate = cand := by
  rw [State.afterSweep, State.sweepCandidate, h]
  exact ⟨rfl, rfl⟩

/-- A service and a sample leave the configuration. -/
theorem afterSweep_cfg (s : State) : s.afterSweep.cfg = s.cfg := by
  cases hsweep : s.sweep with
  | none => rw [State.afterSweep, hsweep]; rfl
  | some r =>
    have hserved : r.1.cfg = s.cfg := sweepOver_keeps (fun v => v.cfg = s.cfg)
      (fun _ _ _ _ _ _ hv hserv => (service_effect hserv).cfg.trans hv) s.scanRange s r.1 _ r.2 hsweep rfl
    rw [(sweep_eq_some hsweep).1, State.sampleAfterSweep_eq, State.sampleWithin_cfg, hserved]

theorem iterate_afterSweep_cfg : ∀ (k : Nat) (s : State), (State.afterSweep^[k] s).cfg = s.cfg
  | 0, _ => rfl
  | k + 1, s => (iterate_afterSweep_cfg k s.afterSweep).trans (afterSweep_cfg s)

/-- Sweep number `k` of a pass is made, and another follows exactly if it is not the last. -/
def State.SweepIsMade (entry : Word) (s : State) (last k : Nat) : Prop :=
  (∃ t, (State.afterSweep^[k] s).sweep = some (t, (State.afterSweep^[k] s).sweepCandidate) ∧
    State.afterSweep^[k + 1] s = t.sampleAfterSweep) ∧
  (k < last ↔ (State.afterSweep^[k + 1] s).sweepAgain entry (State.afterSweep^[k] s).sweepCandidate = true)

/-- Sweeps that end are some number of sweeps, each but the last followed by another; the candidate is that of the last. -/
theorem sweeps_some {entry : Word} : ∀ (fuel : Nat) (s u : State) (cand : Word),
    State.sweeps entry fuel s = some (u, cand) → ∃ last, State.afterSweep^[last + 1] s = u ∧
      (State.afterSweep^[last] s).sweepCandidate = cand ∧ ∀ k, k ≤ last → s.SweepIsMade entry last k
  | 0, _, _, _, h => absurd h nofun
  | fuel + 1, s, u, cand, h => by
    rw [State.sweeps] at h
    split at h
    · exact absurd h nofun
    · rename_i t c hsweep
      obtain ⟨hafter, hcand⟩ := sweep_eq_some hsweep
      have hmade : ∃ t, s.sweep = some (t, s.sweepCandidate) ∧ s.afterSweep = t.sampleAfterSweep :=
        ⟨t, by rw [hcand, hsweep], hafter⟩
      rw [← hafter, ← hcand] at h
      split at h
      · rename_i hagain
        obtain ⟨last, hu, hc, hall⟩ := sweeps_some fuel s.afterSweep u cand h
        refine ⟨last + 1, hu, hc, fun k hk => ?_⟩
        cases k with
        | zero => exact ⟨hmade, iff_of_true (Nat.succ_pos last) hagain⟩
        | succ k =>
          obtain ⟨hsweepk, hiff⟩ := hall k (Nat.le_of_succ_le_succ hk)
          exact ⟨hsweepk, Nat.succ_lt_succ_iff.trans hiff⟩
      · rename_i hend
        obtain ⟨rfl, rfl⟩ := Prod.mk.inj (Option.some.inj h)
        refine ⟨0, rfl, rfl, fun k hk => ?_⟩
        obtain rfl := Nat.le_zero.mp hk
        exact ⟨hmade, iff_of_false (lt_irrefl 0) hend⟩

/-- The continuation test in words of R134. -/
theorem sweepAgain_iff (s : State) (entry cand : Word) : s.sweepAgain entry cand = true ↔
    s.enabled ≠ 0 ∧ signed cand < signed s.cfg.tImminent ∧ signed (s.counter - entry) < signed s.cfg.tBudget := by
  rw [State.sweepAgain, Bool.and_eq_true, Bool.and_eq_true, slt_iff, slt_iff, bne_iff_ne, and_assoc]

/-- Settles O60: a sweep folds its visits over the scan range, and step 2 iterates sweeps while the test holds. -/
theorem sweepsRepeatWhileAnEventIsImminent : Obligations.SweepsRepeatWhileAnEventIsImminent := by
  refine ⟨fun s => ?_, fun s u entry cand h => ⟨fun hzero => ?_, fun hne => ?_⟩⟩
  · rw [State.sweep, sweepOver_eq_foldlM, scanRange_eq_filter, List.foldlM_filter]
    congr 1
    funext r i
    by_cases hin : s.firstActivePin.toNat ≤ i ∧ i ≤ s.lastActivePin.toNat <;> simp [State.visit, hin, ← and_assoc]
  · rw [State.serviceLoop, if_pos hzero] at h
    obtain ⟨rfl, rfl⟩ := Prod.mk.inj (Option.some.inj h)
    exact ⟨rfl, rfl⟩
  · rw [State.serviceLoop, if_neg hne] at h
    obtain ⟨last, hu, hcand, hmade⟩ := sweeps_some sweepFuel s u cand h
    refine ⟨last, fun k => State.afterSweep^[k] s, fun k => (State.afterSweep^[k - 1] s).sweepCandidate, rfl, hu, hcand,
      fun k hk => ?_⟩
    obtain ⟨hsweep, hagain⟩ := hmade k hk
    rw [sweepAgain_iff, iterate_afterSweep_cfg] at hagain
    exact ⟨hsweep, hagain⟩

end Sys2Proof.Machine

/-! PROOFS. One channel over the sweeps of a pass: its enabled bit, its mode and its expiry (spec/41_dispatch.md rules R122, R126,
R127, R133, R138, R142). -/

namespace Sys2Proof.Machine

/-! ### What a service leaves to a channel -/

/-- Only the table's channels leave `Init` (R20). -/
theorem lt_of_mode_ne_init {s : State} {i : Nat} (h : (s.chan i).mode ≠ .init) : i < 17 := by
  by_contra hge
  rw [chan_of_ge s (not_lt.mp hge)] at h
  exact h rfl

/-- The record and the enabled bit of channel `i`, and the `now` of the sweep, are the same. -/
structure State.SameAt (i : Nat) (s t : State) : Prop where
  chan : t.chan i = s.chan i
  enabled : maskBit t.enabled i = maskBit s.enabled i
  counter : t.counter = s.counter

theorem State.SameAt.refl (i : Nat) (s : State) : State.SameAt i s s := ⟨rfl, rfl, rfl⟩

theorem State.SameAt.trans {i : Nat} {s t u : State} (h : State.SameAt i s t) (h' : State.SameAt i t u) :
    State.SameAt i s u := ⟨h'.chan.trans h.chan, h'.enabled.trans h.enabled, h'.counter.trans h.counter⟩

/-- A service of another channel. -/
theorem service_sameAt {i j : Nat} (hij : i ≠ j) {s t : State} {cand cand' : Word}
    (h : s.service j cand = some (t, cand')) : State.SameAt i s t where
  chan := (service_effect h).others i hij
  enabled := by
    rw [(service_effect h).enabled]
    split
    · exact maskBit_clearBit_of_ne _ hij
    · rfl
  counter := (service_effect h).counter

/-- The mode and the expiry after a service of the channel are those of the converted record. -/
theorem service_converts {i : Nat} (hi : i < 17) {s t : State} {cand cand' : Word}
    (h : s.service i cand = some (t, cand')) :
    (t.chan i).mode = ((s.chan i).prepared s.counter).mode ∧
      (t.chan i).expiry = ((s.chan i).prepared s.counter).expiry := by
  obtain ⟨k, hk⟩ := (service_effect h).record hi
  rw [hk]
  exact ⟨rfl, rfl⟩

/-- A service disables only a channel that it leaves in `Expires` (R133). -/
theorem service_keeps_enabled {i : Nat} {s t : State} {cand cand' : Word} (h : s.service i cand = some (t, cand'))
    (hmode : (t.chan i).mode ≠ .expires) : t.enabled = s.enabled := by
  rw [(service_effect h).enabled]
  refine if_neg fun ⟨hexpires, _⟩ => hmode ?_
  have hi : i < 17 := lt_of_mode_ne_init (by rw [hexpires]; exact nofun)
  rw [chan_setChan_self s hi] at hexpires
  rw [(service_converts hi h).1, hexpires]

/-- A service at or after the deadline disables the channel (R133, R142). -/
theorem service_disables_expired {i : Nat} {s t : State} {cand cand' : Word} (h : s.service i cand = some (t, cand'))
    (hmode : (s.chan i).mode = .expires) (hpast : signed ((s.chan i).expiry - s.counter) ≤ 0) :
    maskBit t.enabled i = false := by
  have hsle : sle ((s.chan i).expiry - s.counter) 0 = true := (sle_iff ..).mpr (hpast.trans signed_zero.ge)
  rw [(service_effect h).enabled, prepared_of_expires hmode, setChan_chan, if_pos ⟨hmode, hsle⟩]
  exact maskBit_clearBit_self ..

/-! ### What a sweep leaves to a channel (R124) -/

/-- The visits to other indices. -/
theorem sweepOver_sameAt {i : Nat} : ∀ (l : List Nat) (s t : State) (cand cand' : Word), i ∉ l →
    s.sweepOver l cand = some (t, cand') → State.SameAt i s t
  | [], s, t, cand, cand', _, h => by
    obtain ⟨rfl, -⟩ := Prod.mk.inj (Option.some.inj h)
    exact .refl i s
  | j :: rest, s, t, cand, cand', hi, h => by
    obtain ⟨hij, hrest⟩ := not_or.mp (mt List.mem_cons.mpr hi)
    rw [State.sweepOver] at h
    split at h
    · split at h
      · exact absurd h nofun
      · rename_i u c hserv
        exact (service_sameAt hij hserv).trans (sweepOver_sameAt rest u t c cand' hrest h)
    · exact sweepOver_sameAt rest s t cand cand' hrest h

/-- The visits serve an enabled index of the list once, as they find its channel at their begin. -/
theorem sweepOver_serves {i : Nat} : ∀ (l : List Nat) (s t : State) (cand cand' : Word), l.Nodup → i ∈ l →
    maskBit s.enabled i = true → s.sweepOver l cand = some (t, cand') →
    ∃ u v c c', State.SameAt i s u ∧ u.service i c = some (v, c') ∧ State.SameAt i v t
  | [], _, _, _, _, _, hi, _, _ => absurd hi List.not_mem_nil
  | j :: rest, s, t, cand, cand', hnodup, hi, hen, h => by
    obtain ⟨hj, hrest⟩ := List.nodup_cons.mp hnodup
    rw [State.sweepOver] at h
    by_cases hij : i = j
    · subst hij
      rw [if_pos hen] at h
      split at h
      · exact absurd h nofun
      · rename_i v c hserv
        exact ⟨s, v, cand, c, .refl i s, hserv, sweepOver_sameAt rest v t c cand' hj h⟩
    · have himem : i ∈ rest := (List.mem_cons.mp hi).resolve_left hij
      split at h
      · split at h
        · exact absurd h nofun
        · rename_i u c hserv
          have hsame := service_sameAt hij hserv
          obtain ⟨u', v, d, d', hbefore, hi', hafter⟩ :=
            sweepOver_serves rest u t c cand' hrest himem (hsame.enabled.trans hen) h
          exact ⟨u', v, d, d', hsame.trans hbefore, hi', hafter⟩
      · exact sweepOver_serves rest s t cand cand' hrest himem hen h

/-- Settles O49: an enabled channel of the range is served in the sweep, at its deadline or after it; one that is not enabled
stays so. -/
theorem sweepDisablesExpiredChannels : Obligations.SweepDisablesExpiredChannels := by
  intro s t cand h i hi hmode hpast
  cases hen : maskBit s.enabled i with
  | false =>
    refine sweepOver_keeps (fun v => maskBit v.enabled i = false) (fun j u v c c' _ hu hserv => ?_) _ s t _ cand h hen
    by_contra hon
    rw [service_enabled hserv (eq_true_of_ne_false hon)] at hu
    exact absurd hu nofun
  | true =>
    obtain ⟨u, v, c, c', hbefore, hserv, hafter⟩ := sweepOver_serves _ s t _ cand (scanRange_nodup s) hi hen h
    rw [hafter.enabled]
    exact service_disables_expired hserv (by rw [hbefore.chan, hmode]) (by rwa [hbefore.chan, hbefore.counter])

/-! ### The enabled bit over a pass (R122, R133) -/

theorem beforeSweeps_folded (s : State) (i : Nat) : maskBit s.beforeSweeps.enabled i = s.folded i := by
  rw [beforeSweeps_enabled, maskBit_fold]
  rfl

/-- Channel `i` is enabled or in `Expires`. -/
def State.EnabledOrExpires (i : Nat) (s : State) : Prop := maskBit s.enabled i = true ∨ (s.chan i).mode = .expires

theorem service_enabledOrExpires {i j : Nat} {s t : State} {cand cand' : Word} (hs : s.EnabledOrExpires i)
    (h : s.service j cand = some (t, cand')) : t.EnabledOrExpires i := by
  by_cases hij : i = j
  · subst hij
    by_cases hmode : (t.chan i).mode = .expires
    · exact .inr hmode
    · refine .inl ((service_keeps_enabled h hmode).symm ▸ hs.resolve_right fun hexpires => hmode ?_)
      have hi : i < 17 := lt_of_mode_ne_init (by rw [hexpires]; exact nofun)
      rw [(service_converts hi h).1, prepared_of_expires hexpires, hexpires]
  · rw [State.EnabledOrExpires, (service_sameAt hij h).enabled, (service_sameAt hij h).chan]
    exact hs

/-- Settles O44: step 1 enables the channels that take part, and a service disables only channels in `Expires`. -/
theorem passEnablesWhatWasRequested : Obligations.PassEnablesWhatWasRequested := by
  intro s t h i
  obtain ⟨u, cand, hloop, htable⟩ := pass_sweeps h
  rw [htable.enabled, chan_eq_of_channels htable.channels, ← beforeSweeps_folded]
  refine ⟨fun hen => (serviceLoop_within hloop).enabled i hen, fun hfold hmode => ?_⟩
  have hswept : u.EnabledOrExpires i := serviceLoop_keeps (State.EnabledOrExpires i)
    (fun _ _ _ _ _ _ hv => service_enabledOrExpires hv)
    (fun v hv => by
      have table : v.SameTable v.sampleAfterSweep := sameTable_sampleWithin ..
      rwa [State.EnabledOrExpires, table.enabled, chan_eq_of_channels table.channels])
    hloop (.inl hfold)
  exact hswept.resolve_right hmode

/-! ### The mode and the expiry over a pass (R126, R127, R138) -/

/-- Once converted, a record is not converted again. -/
theorem prepared_settled (c : Channel) (now : Word) :
    (c.prepared now).mode = .infinite ∨ (c.prepared now).mode = .expires := by
  rw [prepared_mode]
  cases c.mode with
  | init =>
    by_cases h : c.expiry = 0
    · exact .inl (if_pos h)
    · exact .inr (if_neg h)
  | updateExpiry | expires => exact .inr rfl
  | infinite => exact .inl rfl

/-- Channel `i` has the mode and the expiry that the conversions give the record `c` at `now`. -/
def State.ConvertedAt (i : Nat) (c : Channel) (now : Word) (s : State) : Prop :=
  (s.chan i).mode = (c.prepared now).mode ∧ (s.chan i).expiry = (c.prepared now).expiry

/-- A converted channel keeps its mode and its expiry in every service (R138). -/
theorem service_convertedAt {i j : Nat} {c : Channel} {now : Word} {s t : State} {cand cand' : Word}
    (hs : s.ConvertedAt i c now) (h : s.service j cand = some (t, cand')) : t.ConvertedAt i c now := by
  obtain ⟨hmode, hexpiry⟩ := hs
  have hsettled : (s.chan i).mode = .infinite ∨ (s.chan i).mode = .expires := hmode ▸ prepared_settled c now
  by_cases hij : i = j
  · subst hij
    have hi : i < 17 := lt_of_mode_ne_init (hmode ▸ prepared_mode_ne_init c now)
    obtain ⟨hm, he⟩ := service_converts hi h
    rw [prepared_of_settled hsettled] at hm he
    exact ⟨hm.trans hmode, he.trans hexpiry⟩
  · rw [State.ConvertedAt, (service_sameAt hij h).chan]
    exact ⟨hmode, hexpiry⟩

theorem State.ConvertedAt.sampleAfterSweep {i : Nat} {c : Channel} {now : Word} {s : State} (h : s.ConvertedAt i c now) :
    s.sampleAfterSweep.ConvertedAt i c now := by
  have table : s.SameTable s.sampleAfterSweep := sameTable_sampleWithin ..
  rwa [State.ConvertedAt, chan_eq_of_channels table.channels]

/-- A pass leaves a record as it was, or converts it once. -/
theorem pass_converts {s t : State} (h : s.pass = some t) (i : Nat) :
    t.chan i = s.chan i ∨ ∃ now, t.ConvertedAt i (s.chan i) now := by
  obtain ⟨u, cand, hloop, htable⟩ := pass_sweeps h
  have hswept := serviceLoop_keeps (fun v => v.chan i = s.chan i ∨ ∃ now, v.ConvertedAt i (s.chan i) now)
    (fun j v w c c' _ hv hserv => ?_) (fun v hv => ?_) hloop (.inl (beforeSweeps_chan s i))
  · simpa only [State.ConvertedAt, chan_eq_of_channels htable.channels] using hswept
  · obtain hsame | ⟨now, hconverted⟩ := hv
    · by_cases hij : i = j
      · subst hij
        by_cases hi : i < 17
        · have hconverted := service_converts hi hserv
          rw [hsame] at hconverted
          exact .inr ⟨v.counter, hconverted⟩
        · exact .inl (by rw [chan_of_ge w (not_lt.mp hi), chan_of_ge s (not_lt.mp hi)])
      · exact .inl ((service_sameAt hij hserv).chan.trans hsame)
    · exact .inr ⟨now, service_convertedAt hconverted hserv⟩
  · exact hv.imp (fun hsame => (chan_eq_of_channels (by simp) i).trans hsame)
      fun ⟨now, hconverted⟩ => ⟨now, hconverted.sampleAfterSweep⟩

/-- What the first sweep brings about and every service and sample keeps holds after step 2. -/
theorem serviceLoop_of_first_sweep (P : State → Prop)
    (hserv : ∀ i s t c c', maskBit s.enabled i = true → P s → s.service i c = some (t, c') → P t)
    (hsample : ∀ s, P s → P s.sampleAfterSweep) {entry : Word} {s t : State} {cand : Word} (hne : s.enabled ≠ 0)
    (h : s.serviceLoop entry = some (t, cand)) (hfirst : ∀ u c, s.sweep = some (u, c) → P u) : P t := by
  rw [State.serviceLoop, if_neg hne] at h
  generalize sweepFuel = fuel at h
  cases fuel with
  | zero => exact absurd h nofun
  | succ fuel =>
    rw [State.sweeps] at h
    split at h
    · exact absurd h nofun
    · rename_i u c hsweep
      have hu := hsample u (hfirst u c hsweep)
      split at h
      · exact sweeps_keeps P hserv hsample entry fuel _ t cand h hu
      · obtain ⟨rfl, -⟩ := Prod.mk.inj (Option.some.inj h)
        exact hu

/-- From a sound state the first sweep of a pass converts every channel that takes part, at the `now` it begins with. -/
theorem pass_converts_folded {s t : State} (h : s.pass = some t) (hs : s.Sound) {i : Nat} (hfold : s.folded i = true) :
    t.ConvertedAt i (s.chan i) s.beforeSweeps.counter := by
  obtain ⟨u, cand, hloop, htable⟩ := pass_sweeps h
  have hen : maskBit s.beforeSweeps.enabled i = true := (beforeSweeps_folded s i).trans hfold
  have hne : s.beforeSweeps.enabled ≠ 0 := fun hzero => by
    rw [hzero] at hen
    exact absurd hen (by simp)
  have hbegin := hs.beforeSweeps
  have hi : i < 17 := (maskFits_iff _).mp hbegin.masksFit.1 i hen
  have hrange : i ∈ s.beforeSweeps.scanRange := (mem_scanRange ..).mpr (hbegin.rangeBounds i hen)
  have hswept : u.ConvertedAt i (s.chan i) s.beforeSweeps.counter :=
    serviceLoop_of_first_sweep (State.ConvertedAt i _ _) (fun _ _ _ _ _ _ hv => service_convertedAt hv)
      (fun _ hv => hv.sampleAfterSweep) hne hloop fun v c hsweep => by
        obtain ⟨w, w', d, d', hbefore, hserv, hafter⟩ :=
          sweepOver_serves _ _ v _ c (scanRange_nodup _) hrange hen hsweep
        have hconverted := service_converts hi hserv
        rw [hbefore.chan, hbefore.counter, beforeSweeps_chan] at hconverted
        rwa [State.ConvertedAt, hafter.chan]
  rwa [State.ConvertedAt, chan_eq_of_channels htable.channels]

/-- Settles O47: a pass converts a record at most once, and from a sound state every channel that takes part. -/
theorem passMovesModesByTheStateMachine : Obligations.PassMovesModesByTheStateMachine := by
  intro s t h i
  have hmode : (t.chan i).mode = (s.chan i).mode ∨ ∃ now, (t.chan i).mode = ((s.chan i).prepared now).mode :=
    (pass_converts h i).imp (congrArg Channel.mode) fun ⟨now, hconverted⟩ => ⟨now, hconverted.1⟩
  refine ⟨?_, fun hs hfold => ?_⟩
  · simp only [prepared_mode, exists_const] at hmode
    cases hm : (s.chan i).mode with
    | init | updateExpiry => simpa only [hm] using hmode
    | expires | infinite => simpa only [hm, or_self] using hmode
  · obtain ⟨hm', he'⟩ := pass_converts_folded h hs hfold
    cases hm : (s.chan i).mode with
    | init =>
      by_cases hexpiry : (s.chan i).expiry = 0
      · rw [prepared_of_init_forever hm hexpiry] at hm' he'
        simp only [if_pos hexpiry]
        exact ⟨hm', he'.trans hexpiry⟩
      · rw [prepared_of_init_finite hm hexpiry] at hm' he'
        simp only [if_neg hexpiry]
        exact ⟨hm', he'⟩
    | updateExpiry =>
      rw [prepared_of_updateExpiry hm] at hm' he'
      exact ⟨hm', he'⟩
    | expires =>
      rw [prepared_of_expires hm] at hm' he'
      exact ⟨hm'.trans hm, he'⟩
    | infinite =>
      rw [prepared_of_infinite hm] at hm' he'
      exact ⟨hm'.trans hm, he'⟩

end Sys2Proof.Machine

/-! PROOFS. The falling edges of a channel over a pass: that the pass completes (spec/41_dispatch.md rules R134, R145;
spec/70_reset_and_hazards.md rule R198), and that it keeps the phase lock (R139). -/

namespace Sys2Proof.Machine

/-! ### The drift loop within the bounds (R145, R198) -/

theorem driftAdvances_le_fuel (period duty now phase : Word) : driftAdvances period duty now phase ≤ driftFuel := by
  have hfuel : driftFuel = 2 ^ 32 := rfl
  have hlow := (signed_bounds (phase + duty - now)).1
  have hdiv := Nat.div_le_self (-(signed (phase + duty - now))).toNat period.toNat
  unfold driftAdvances
  omega

/-- Within the bounds a falling edge that is not ahead is brought ahead (R145). -/
theorem driftLoop_of_late {period duty now phase : Word} (hpos : 0 < period.toNat) (hperiod : period.toNat < 2 ^ 31)
    (hduty : duty.toNat ≤ period.toNat) (hlate : signed (phase + duty - now) ≤ 0) :
    driftLoop period duty now driftFuel phase =
      some (phase + BitVec.ofNat 32 (driftAdvances period duty now phase) * period) :=
  have ⟨hstop, hgo⟩ := driftGoesOn_advances hpos hperiod hduty hlate
  driftLoop_of_first (Nat.le_add_left ..) (driftAdvances_le_fuel ..) hgo hstop

/-! ### A pass within the bounds completes (R198) -/

/-- Every enabled channel respects R198. -/
def State.EnabledInBounds (s : State) : Prop := ∀ i, maskBit s.enabled i = true → s.shapeInBounds i

theorem State.EnabledInBounds.service {i : Nat} {s t : State} {cand cand' : Word} (h : s.EnabledInBounds)
    (hserv : s.service i cand = some (t, cand')) : t.EnabledInBounds := fun j hj => by
  obtain ⟨hduty, hperiod⟩ := service_shape hserv j
  rw [State.shapeInBounds, hduty, hperiod]
  exact h j (service_enabled hserv hj)

theorem State.EnabledInBounds.sameTable {s t : State} (h : s.EnabledInBounds) (w : s.SameTable t) :
    t.EnabledInBounds := fun j hj => by
  rw [State.shapeInBounds, chan_eq_of_channels w.channels]
  exact h j (w.enabled ▸ hj)

/-- The drift loop of an edge within the bounds ends, since the falling edge it starts from is not ahead. -/
theorem edge_completes {s : State} {i : Nat} {ne : Word} (h : s.shapeInBounds i)
    (hne : (s.chan i).nextEvent (maskBit s.level i) s.counter = ne) (er : Word) : ∃ r, s.edge i ne er = some r := by
  cases hdue : edgeDue ne er with
  | false => exact ⟨_, edge_of_not_due hdue s i⟩
  | true =>
    cases hlevel : maskBit s.level i with
    | false => exact ⟨_, edge_of_rising hdue hlevel⟩
    | true =>
      obtain ⟨hlate, -⟩ := (edgeDue_iff ..).mp hdue
      rw [← hne, hlevel, Channel.nextEvent, if_pos rfl] at hlate
      obtain ⟨hpos, hperiod, hduty⟩ := h
      exact ⟨_, (edge_of_falling hdue hlevel).trans (toggleLow_of_loop (driftLoop_of_late hpos hperiod hduty hlate))⟩

/-- A service within the bounds completes: its conversions write no shape (R126, R127), so its edge is within them too. -/
theorem service_completes {s : State} {i : Nat} (h : s.shapeInBounds i) (cand : Word) :
    ∃ t cand', s.service i cand = some (t, cand') := by
  have hi : i < 17 := by
    by_contra hge
    rw [State.shapeInBounds, chan_of_ge s (not_lt.mp hge)] at h
    exact absurd h.1 (by decide)
  have hself := chan_setChan_self s hi ((s.chan i).prepared s.counter)
  have hbounds : (s.setChan i ((s.chan i).prepared s.counter)).shapeInBounds i := by
    rw [State.shapeInBounds, hself, prepared_period, prepared_duty]
    exact h
  obtain ⟨r, hr⟩ := edge_completes hbounds (congrArg (fun c => c.nextEvent (maskBit s.level i) s.counter) hself)
    (((s.chan i).prepared s.counter).expiryRemaining
      (((s.chan i).prepared s.counter).nextEvent (maskBit s.level i) s.counter) s.counter)
  exact ⟨_, _, congrArg (Option.map _) hr⟩

theorem sweepOver_completes : ∀ (l : List Nat) (s : State) (cand : Word), s.EnabledInBounds →
    ∃ t cand', s.sweepOver l cand = some (t, cand')
  | [], s, cand, _ => ⟨s, cand, rfl⟩
  | i :: rest, s, cand, h => by
    rw [State.sweepOver]
    split
    · rename_i hen
      obtain ⟨t, c, hserv⟩ := service_completes (h i hen) cand
      rw [hserv]
      exact sweepOver_completes rest t c (h.service hserv)
    · exact sweepOver_completes rest s cand h

/-- Every sweep takes a cycle of the span, so the budget ends the sweeps before their cut (R134). -/
theorem sweeps_complete {entry : Word} : ∀ (fuel : Nat) (s : State), s.EnabledInBounds → s.InSpan entry →
    s.lapse < spanLimit → spanLimit < fuel + s.lapse → ∃ t cand, State.sweeps entry fuel s = some (t, cand)
  | 0, s, _, _, hlt, hfuel => by omega
  | fuel + 1, s, hbounds, hspan, hlt, hfuel => by
    obtain ⟨t, cand, hsweep⟩ := sweepOver_completes s.scanRange s s.cfg.tMaxirq hbounds
    obtain ⟨htspan, htlt⟩ := sweep_inSpan hsweep ⟨hspan, hlt⟩
    have hkept : t.EnabledInBounds ∧ t.lapse = s.lapse := sweepOver_keeps
      (fun v => v.EnabledInBounds ∧ v.lapse = s.lapse)
      (fun _ _ _ _ _ _ hv hserv => ⟨hv.1.service hserv, (service_effect hserv).lapse.trans hv.2⟩)
      _ s t _ cand hsweep ⟨hbounds, rfl⟩
    have hafter : t.sampleAfterSweep.InSpan entry := htspan.sampleWithin htlt
    have hcycle : t.lapse + 1 ≤ t.sampleAfterSweep.lapse := nextLapse_ge t 1 spanLimit
    have hs : s.sweep = some (t, cand) := hsweep
    rw [State.sweeps, hs]
    by_cases hagain : t.sampleAfterSweep.sweepAgain entry cand = true
    · simp only [hagain, if_true]
      exact sweeps_complete fuel _ (hkept.1.sameTable (sameTable_sampleWithin ..)) hafter
        (lapse_lt_of_sweepAgain hafter hagain) (by omega)
    · simp only [hagain]
      exact ⟨_, _, rfl⟩

/-- Settles O41: the channels the sweeps find enabled are those enabled or requested, whose services complete. -/
theorem passCompletesWithinTheBounds : Obligations.PassCompletesWithinTheBounds := by
  intro s hbounds
  obtain ⟨hcounter, hlapse, hlt⟩ := beforeSweeps_time s
  have henabled : s.beforeSweeps.EnabledInBounds := fun i hi => by
    rw [State.shapeInBounds, beforeSweeps_chan]
    refine hbounds i ?_
    rw [beforeSweeps_folded, State.folded, Bool.or_eq_true, Bool.and_eq_true] at hi
    exact Bool.or_eq_true _ _ ▸ hi.imp_left And.left
  have hloop : ∃ u cand, s.beforeSweeps.serviceLoop s.counter = some (u, cand) := by
    rw [State.serviceLoop]
    split
    · exact ⟨_, _, rfl⟩
    · rename_i hne
      have hfuel : spanLimit < sweepFuel := by decide
      exact sweeps_complete sweepFuel _ henabled ⟨hcounter, hlapse⟩ (hlt hne) (by omega)
  obtain ⟨u, cand, hu⟩ := hloop
  exact ⟨_, pass_of_sweeps hu⟩

/-! ### The phase lock (R139, R145) -/

/-- A service of a channel past `Init` keeps its phase, or drives a falling edge that is not ahead and corrects the drift. -/
theorem service_phase {i : Nat} {s t : State} {cand cand' : Word} (hmode : (s.chan i).mode ≠ .init)
    (h : s.service i cand = some (t, cand')) : (t.chan i).phaseStart = (s.chan i).phaseStart ∨
      (signed ((s.chan i).phaseStart + (s.chan i).duty - s.counter) ≤ 0 ∧
        driftLoop (s.chan i).period (s.chan i).duty s.counter driftFuel (s.chan i).phaseStart =
          some (t.chan i).phaseStart) := by
  have hi := lt_of_mode_ne_init hmode
  have hself := chan_setChan_self s hi ((s.chan i).prepared s.counter)
  obtain ⟨u, ne', hedge, hsettle⟩ := service_some h
  have htu : t.chan i = u.chan i := by
    rw [show t = _ from congrArg Prod.fst hsettle, settle_fst]
    split <;> rfl
  rw [htu, ← prepared_phase hmode s.counter]
  obtain ⟨-, rfl, -⟩ | ⟨-, -, hhigh⟩ | ⟨hdue, hlevel, hlow⟩ := edge_cases hedge
  · exact .inl (by rw [hself])
  · have hu : u.channels = _ := (congrArg (fun r => r.1.channels) hhigh).trans (toggleHigh_table _ (by omega) _).1
    exact .inl (by rw [chan_eq_of_channels hu, hself])
  · obtain ⟨phase, hloop, -, rfl⟩ := toggleLow_cases hlow
    rw [hself, prepared_period, prepared_duty] at hloop
    obtain ⟨hlate, -⟩ := (edgeDue_iff ..).mp hdue
    rw [State.setChan_level] at hlevel
    rw [hlevel, Channel.nextEvent, if_pos rfl, prepared_duty] at hlate
    rw [chan_setChan_self _ hi]
    exact .inr ⟨hlate, hloop⟩

/-- The time from the latest sample to the falling edge of channel `i`, negative if it is past. -/
def State.toFallingEdge (s : State) (i : Nat) : Int := signed ((s.chan i).phaseStart + (s.chan i).duty - s.counter)

/-- A phase of channel `i` that lies `k` periods after that of `s`, `lapse` cycles after `s`. For a shape within R198 an advance
has brought the falling edge after the entry, and by no more than a period beyond the lapse. -/
structure State.PhaseLocked (s : State) (i : Nat) (phase : Word) (lapse k : Nat) : Prop where
  phase_eq : phase = (s.chan i).phaseStart + BitVec.ofNat 32 k * (s.chan i).period
  bounded : s.shapeInBounds i → k = 0 ∨ (0 < s.toFallingEdge i + k * (s.chan i).period.toNat ∧
    ((k : Int) - 1) * (s.chan i).period.toNat ≤ lapse - s.toFallingEdge i)

theorem State.PhaseLocked.mono {s : State} {i : Nat} {phase : Word} {lapse lapse' k : Nat}
    (h : s.PhaseLocked i phase lapse k) (hle : lapse ≤ lapse') : s.PhaseLocked i phase lapse' k where
  phase_eq := h.phase_eq
  bounded hbounds := (h.bounded hbounds).imp_right fun ⟨hafter, hnear⟩ => ⟨hafter, by omega⟩

/-- Within the span no falling edge of a locked phase is so far off that its time wraps unseen: if it is seen as not ahead, it is
that late. -/
theorem State.PhaseLocked.late {s : State} {i : Nat} {phase now : Word} {lapse k : Nat}
    (h : s.PhaseLocked i phase lapse k) (hbounds : s.shapeInBounds i) (hspan : lapse ≤ spanLimit)
    (hnow : now = s.counter + BitVec.ofNat 32 lapse) (hlate : signed (phase + (s.chan i).duty - now) ≤ 0) :
    signed (phase + (s.chan i).duty - now) = s.toFallingEdge i + k * (s.chan i).period.toNat - lapse := by
  have hword : phase + (s.chan i).duty - now =
      ((s.toFallingEdge i + k * (s.chan i).period.toNat - lapse : Int) : Word) := by
    rw [Int.cast_sub, Int.cast_add, Int.cast_mul, State.toFallingEdge, intCast_signed, intCast_toNat, h.phase_eq, hnow,
      Int.cast_natCast, Int.cast_natCast, BitVec.natCast_eq_ofNat, BitVec.natCast_eq_ofNat]
    ring
  have hlimit : spanLimit = 2147483647 := rfl
  have hedge : -(2 ^ 31) ≤ s.toFallingEdge i ∧ s.toFallingEdge i < 2 ^ 31 := signed_bounds _
  rw [hword, signed_eq_toInt, BitVec.toInt_intCast, Int.bmod] at hlate ⊢
  obtain rfl | ⟨hafter, hnear⟩ := h.bounded hbounds
  · split at hlate <;> split <;> omega
  · obtain ⟨-, hperiod, -⟩ := hbounds
    rw [sub_mul, one_mul] at hnear
    split at hlate <;> split <;> omega

/-- The drift correction keeps the phase locked (R132, R145). -/
theorem State.PhaseLocked.advance {s : State} {i : Nat} {phase phase' now : Word} {lapse k : Nat}
    (h : s.PhaseLocked i phase lapse k) (hspan : lapse ≤ spanLimit) (hnow : now = s.counter + BitVec.ofNat 32 lapse)
    (hlate : signed (phase + (s.chan i).duty - now) ≤ 0)
    (hloop : driftLoop (s.chan i).period (s.chan i).duty now driftFuel phase = some phase') :
    ∃ k', s.PhaseLocked i phase' lapse k' := by
  have phase_add (n : Nat) : phase + BitVec.ofNat 32 n * (s.chan i).period =
      (s.chan i).phaseStart + BitVec.ofNat 32 (k + n) * (s.chan i).period := by
    rw [h.phase_eq, BitVec.ofNat_add]
    ring
  by_cases hbounds : s.shapeInBounds i
  · have hlateness := h.late hbounds hspan hnow hlate
    obtain ⟨hpos, hperiod, hduty⟩ := hbounds
    rw [driftLoop_of_late hpos hperiod hduty hlate, phase_add, Option.some_inj] at hloop
    refine ⟨_, hloop.symm, fun _ => .inr ?_⟩
    unfold driftAdvances
    generalize hL : (-(signed (phase + (s.chan i).duty - now))).toNat = late
    have hdown : ((late / (s.chan i).period.toNat : Nat) : Int) * (s.chan i).period.toNat ≤ late := by
      exact_mod_cast Nat.div_mul_le_self ..
    have hup : (late : Int) < (late / (s.chan i).period.toNat : Nat) * (s.chan i).period.toNat + (s.chan i).period.toNat := by
      exact_mod_cast Nat.lt_div_mul_add hpos
    rw [Nat.cast_add, Nat.cast_succ, ← add_assoc, add_sub_cancel_right, add_mul, add_mul, one_mul]
    omega
  · obtain ⟨n, -, rfl, -, -⟩ := first_of_driftLoop hloop
    exact ⟨k + n, phase_add n, fun hin => absurd hin hbounds⟩

/-- In the pass entered at `s`, channel `i` is past `Init` with the shape it had, and its phase is locked while the samples lie
within the span. -/
structure State.KeepsPhase (s : State) (i : Nat) (v : State) : Prop where
  mode : (v.chan i).mode ≠ .init
  duty : (v.chan i).duty = (s.chan i).duty
  period : (v.chan i).period = (s.chan i).period
  counter : v.counter = s.counter + BitVec.ofNat 32 v.lapse
  locked : v.lapse ≤ spanLimit → ∃ k, s.PhaseLocked i (v.chan i).phaseStart v.lapse k

theorem State.KeepsPhase.sampleWithin {s v : State} {i : Nat} (h : s.KeepsPhase i v) (least ceiling : Nat) :
    s.KeepsPhase i (v.sampleWithin least ceiling) := by
  have hchan : (v.sampleWithin least ceiling).chan i = v.chan i := chan_eq_of_channels (by simp) i
  have hle : v.lapse ≤ (v.sampleWithin least ceiling).lapse := (Nat.le_add_right ..).trans (nextLapse_ge v least ceiling)
  exact
    { mode := hchan ▸ h.mode
      duty := hchan ▸ h.duty
      period := hchan ▸ h.period
      counter := sampleWithin_counter_of_anchor v s.counter least ceiling h.counter
      locked := fun hspan => by
        obtain ⟨k, hk⟩ := h.locked (hle.trans hspan)
        rw [hchan]
        exact ⟨k, hk.mono hle⟩ }

theorem State.KeepsPhase.service {s v w : State} {i j : Nat} {cand cand' : Word} (h : s.KeepsPhase i v)
    (hserv : v.service j cand = some (w, cand')) : s.KeepsPhase i w := by
  obtain ⟨hduty, hperiod⟩ := service_shape hserv i
  have hlapse := (service_effect hserv).lapse
  exact
    { mode := service_mode hserv (lt_of_mode_ne_init h.mode) (.inr h.mode)
      duty := hduty.trans h.duty
      period := hperiod.trans h.period
      counter := by rw [(service_effect hserv).counter, hlapse, h.counter]
      locked := fun hspan => by
        rw [hlapse] at hspan ⊢
        obtain ⟨k, hk⟩ := h.locked hspan
        by_cases hij : i = j
        · subst hij
          obtain hsame | ⟨hlate, hloop⟩ := service_phase h.mode hserv
          · exact ⟨k, hsame ▸ hk⟩
          · rw [h.duty] at hlate hloop
            rw [h.period] at hloop
            exact hk.advance hspan h.counter hlate hloop
        · exact ⟨k, (service_sameAt hij hserv).chan ▸ hk⟩ }

/-- The sweeps of a pass begin with every phase as it was. -/
theorem keepsPhase_beforeSweeps {s : State} {i : Nat} (hmode : (s.chan i).mode ≠ .init) : s.KeepsPhase i s.beforeSweeps where
  mode := beforeSweeps_chan s i ▸ hmode
  duty := by rw [beforeSweeps_chan]
  period := by rw [beforeSweeps_chan]
  counter := (beforeSweeps_time s).1
  locked _ := ⟨0, by rw [beforeSweeps_chan]; simp, fun _ => .inl rfl⟩

/-- The last sample of a pass comes no earlier than that of its sweeps. -/
theorem pass_swept_lapse {s t : State} (h : s.pass = some t) : ∃ u cand,
    s.beforeSweeps.serviceLoop s.counter = some (u, cand) ∧ u.SameTable t ∧ u.lapse ≤ spanLimit ∧
      u.lapse ≤ (t.counter - s.counter).toNat := by
  obtain ⟨u, cand, hloop, rfl⟩ := pass_some h
  obtain ⟨hcounter, hlapse, hlt⟩ := beforeSweeps_time s
  have hswept := serviceLoop_inSpan hloop ⟨hcounter, hlapse⟩ hlt
  have hlast := consultCallback_inSpan hswept cand
  have hasked : u.lapse ≤ (u.consultCallback cand).1.lapse := by
    unfold State.consultCallback
    split
    · exact (State.auxAnswerTaken_lapse u).ge.trans (nextLapse_ge _ 0 spanLimit)
    · exact le_rfl
  refine ⟨u, cand, hloop, (sameTable_consultCallback u cand).trans (sameTable_rearm ..), hswept.2, ?_⟩
  rw [State.rearm_counter, State.sample, (hlast.sampleWithin (least := 0) hlast.2).elapsed]
  exact hasked.trans (nextLapse_ge _ 0 spanLimit)

/-- Settles O46: each falling edge keeps the phase locked to the lapse of its sweep, and the pass ends no earlier. -/
theorem passKeepsThePhaseLock : Obligations.PassKeepsThePhaseLock := by
  intro s t h i hmode
  obtain ⟨u, cand, hloop, htable, hspan, hlapse⟩ := pass_swept_lapse h
  have hswept : s.KeepsPhase i u := serviceLoop_keeps (s.KeepsPhase i) (fun _ _ _ _ _ _ hv => hv.service)
    (fun _ hv => hv.sampleWithin ..) hloop (keepsPhase_beforeSweeps hmode)
  obtain ⟨k, hk⟩ := hswept.locked hspan
  rw [chan_eq_of_channels htable.channels]
  refine ⟨k, hk.phase_eq, fun hbounds => (hk.bounded hbounds).imp_right fun ⟨_, hnear⟩ => hnear.trans ?_⟩
  exact sub_le_sub_right (by exact_mod_cast hlapse) _

end Sys2Proof.Machine

/-! PROOFS. The timer driver (spec/42_timer_driver.md rules R151 to R153, R156). -/

namespace Sys2Proof.Machine

/-! ### What the timer driver writes (R151 to R153) -/

/-- The reload value counts whole ticks: half the cycles, rounded down, for a fast clock (R153). -/
theorem ticksOf_toNat (s : State) (c : Word) :
    (s.ticksOf c).toNat = if s.cfg.clockFast then c.toNat / 2 else c.toNat := by
  unfold State.ticksOf
  split
  · rw [BitVec.toNat_ushiftRight, Nat.shiftRight_eq_div_pow, pow_one]
  · rfl

/-- Starting is arming with the kick and running (R151). -/
theorem tstart_eq_kick (s : State) : s.tstart = { s.tarm s.cfg.tKick with timerRunning := true } := by
  rw [tstart_of_sameClock (State.SameClock.refl s), tarm_of_sameClock (State.SameClock.refl s)]

/-- Settles O27: the reload value, then each operation by all that it writes. -/
theorem timerDriverWritesItsRegisters : Obligations.TimerDriverWritesItsRegisters := by
  intro s c
  refine ⟨fun _ => ?load, ?arming, tstart_eq_kick s, rfl⟩
  case load => rw [State.tarm_timerLoad, ticksOf_toNat]
  case arming => rw [State.tarm_timerLoad, tarm_of_sameClock (State.SameClock.refl s)]

/-! ### Starting and stopping twice (R156) -/

/-- Starting a timer that is started and loaded with the kick renews the reference sample and nothing else (R156). -/
theorem tstart_of_started {s : State} (hrunning : s.timerRunning = true) (harmed : s.timerArmed = true)
    (hload : s.timerLoad = s.ticksOf s.cfg.tKick) : s.tstart = { s with
      timerRef := s.sample.counter
      counter := s.sample.counter, lapse := s.sample.lapse, elapsed := s.sample.elapsed, draws := s.sample.draws } := by
  rw [tstart_of_sameClock (State.SameClock.refl s), hrunning, harmed, hload]

theorem tstart_loads_kick (s : State) : s.tstart.timerLoad = s.tstart.ticksOf s.tstart.cfg.tKick := by
  simp only [State.tstart_timerLoad, State.ticksOf, State.tstart_cfg]

/-- Settles O28: the first TSTART leaves the timer started and loaded with the kick, so the second renews the sample only. -/
theorem timerStartAndStopAreIdempotent : Obligations.TimerStartAndStopAreIdempotent := by
  intro s
  refine ⟨rfl, s.tstart.tstart_timerRef, ?_⟩
  rw [tstart_of_started s.tstart_timerRunning s.tstart_timerArmed (tstart_loads_kick s)]

end Sys2Proof.Machine

/-! PROOFS. The machine at rest (spec/60_exceptions.md rule R175; spec/70_reset_and_hazards.md rule R188). -/

namespace Sys2Proof.Machine

/-- A port that is not there has no step of its own to make. -/
theorem portStep_of_no_port {s : State} (h : s.activePort = none) : s.portStep = .next s := by
  simp only [State.portStep, h]

/-- An idle port with no frame before it waits (R100). -/
theorem portStep_of_empty_inbox {s : State} {q : Port} (hq : s.activePort = some q) (hc : q.cmd = none)
    (hin : q.inbox = []) : s.portStep = .next s := by
  simp only [State.portStep, hq, hc, hin]

/-- With every port idle and no frame before any, the active port has nothing to do, be it there or not. -/
theorem portStep_of_quiet_ports {s : State} (h : ∀ p ∈ s.ports, p.cmd = none ∧ p.inbox = []) : s.portStep = .next s := by
  cases hport : s.activePort with
  | none => exact portStep_of_no_port hport
  | some q =>
    obtain ⟨hidle, hempty⟩ := h q (List.mem_of_getElem? hport)
    exact portStep_of_empty_inbox hport hidle hempty

/-- Settles O7: by whose turn it is; a quiet port waits, and the engine does not look at a stopped timer. -/
theorem idleMachineDoesNothing : Obligations.IdleMachineDoesNothing := by
  intro s hquiet hstopped
  cases hturn : s.turn with
  | port p =>
    rw [step_of_port hturn]
    exact portStep_of_quiet_ports (by simpa only [State.turnTaken_ports] using hquiet)
  | dispatch =>
    rw [step_of_dispatch hturn]
    exact dispatchStep_of_stopped (by rwa [State.turnTaken_timerRunning])

end Sys2Proof.Machine

/-! PROOFS. What reset defines and what a duration out of bounds does (spec/70_reset_and_hazards.md rules R186, R200). -/

namespace Sys2Proof.Machine

/-! ### Reset (R186) -/

/-- Settles O55: `State.reset` writes each of these values, and every port it makes is idle. -/
theorem resetHoldsTheDefinedValues : Obligations.ResetHoldsTheDefinedValues :=
  ⟨rfl, rfl, rfl, rfl, rfl, rfl, rfl, rfl, rfl, rfl, fun _ => reset_ports⟩

/-! ### A duration of 2^31 cycles or more (R200) -/

/-- Read in two's complement such a word is negative (R13). -/
theorem signed_neg_of_ge {v : Word} (h : 2 ^ 31 ≤ v.toNat) : signed v < 0 := by
  have hlt := v.isLt
  rw [signed, if_neg (not_lt.mpr h)]
  omega

/-- The first service of such a channel: its phase is `now`, so an edge is due at once, but its deadline seems to lie before that
edge (R129, R130). The channel is converted and disabled, and nothing else is written. -/
theorem service_of_fresh_huge {s : State} {i : Nat} (hi : i ≤ 16) (hmode : (s.chan i).mode = .init)
    (hhuge : 2 ^ 31 ≤ (s.chan i).expiry.toNat) (hlow : maskBit s.level i = false) (cand : Word) :
    let c := { s.chan i with phaseStart := s.counter, expiry := (s.chan i).expiry + s.counter, mode := .expires }
    s.service i cand = some ((s.setChan i c).disable i, minS cand 0) := by
  intro c
  have hpast := signed_neg_of_ge hhuge
  have hexpiry : (s.chan i).expiry ≠ 0 := fun h0 => hpast.ne (h0 ▸ signed_zero)
  have hc : (s.setChan i c).chan i = c := chan_setChan_self s (by omega) c
  have hne : c.phaseStart + (if maskBit s.level i then c.duty else 0) - s.counter = 0 := by simp [c, hlow]
  have her : c.expiry - s.counter = (s.chan i).expiry := by simp [c]
  have hconverted := service_setChan_prepared s i cand
  rw [prepared_of_init_finite hmode hexpiry] at hconverted
  have hexpired := expiryClearsOnlyTheEnabledBit (s.setChan i c) i cand
  simp only [hc, State.setChan_level, State.setChan_counter, hne, her, signed_zero] at hexpired
  rw [← hconverted]
  exact hexpired rfl hpast.le (.inr hpast.le)

/-- Settles O34: the first service converts and disables the channel, and makes no edge. -/
theorem hugeDurationExpiresAtOnce : Obligations.HugeDurationExpiresAtOnce := by
  intro s i cand hi hmode hhuge hlow
  refine ⟨_, service_of_fresh_huge hi hmode hhuge hlow cand, maskBit_clearBit_self .., rfl, rfl, rfl, ?_⟩
  exact congrArg Channel.mode (chan_setChan_self s (show i < 17 by omega) _)

end Sys2Proof.Machine
